-- ==== Sys2Proof/Word.lean ====
section
/-! DEFINITION. The values the engine works on (R11, R13): bytes, command words, blocks, key-schedule words and
schedules, with the bytewise exclusive-or of two blocks. Nothing in the data path is wider than a byte (R61), so a
block is a vector of bytes and never one wide number. -/

namespace Sys2Proof

/-- A byte (R11): unsigned, bit 7 most significant. -/
abbrev Byte := BitVec 8

/-- A command word (R11, R90): the 32-bit value the host writes to `CMD`, bit 31 most significant. -/
abbrev CmdWord := BitVec 32

/-- A block (R13): sixteen bytes, index 0 first. -/
abbrev Block := Vector Byte 16

/-- A key-schedule word (R13, R63): four bytes, lowest index first; never read as a 32-bit number. -/
abbrev KeyWord := Vector Byte 4

/-- A key schedule (R22): 176 bytes, eleven round keys of sixteen. -/
abbrev Schedule := Vector Byte 176

/-- `A ^ B` on two blocks (R12): index by index. -/
def xorBlock (A B : Block) : Block := Vector.ofFn fun i => A[i] ^^^ B[i]

/-- The block of sixteen zero bytes, `rep(0x00, 16)`. -/
def zeroBlock : Block := Vector.replicate 16 0

/-- The schedule of 176 zero bytes, `rep(0x00, 176)`. -/
def zeroSchedule : Schedule := Vector.replicate 176 0

end Sys2Proof
end

