-- ==== Sys2Proof/Syntax.lean ====
section
/-! DEFINITION. The twenty commands of R92, one constructor a row of spec/opcode_table.json, in the table's order.
Operands are the immediate bytes of the word (R91); everything else a command reads is in registers and buffers. -/

namespace Sys2Proof

/-- A command of the engine (R92). -/
inductive Instr where
  | xtime (a : Byte)
  | gmul (a b : Byte)
  | sbox (a : Byte)
  | isbox (a : Byte)
  | rcon (a : Byte)
  | keyexp
  | subb
  | shrow
  | mixc
  | addrk (a : Byte)
  | isubb
  | ishrow
  | imixc
  | encblk
  | decblk
  | pad
  | unpad
  | cbcenc
  | cbcdec
  | clr
  deriving DecidableEq, Repr

end Sys2Proof
end

