-- ==== Sys2Proof/WellFormed.lean ====
section
/-! DEFINITION. Which command terms are commands: the operand ranges of R92 and R95. -/

namespace Sys2Proof

/-- The operand ranges (R92, R95): a round-constant index is 1 to 10, a round-key number 0 to 10; every other operand
may be any byte. -/
def Instr.wellFormed : Instr → Bool
  | .rcon a => 1 ≤ a.toNat && a.toNat ≤ 10
  | .addrk a => a.toNat ≤ 10
  | .xtime _ | .gmul _ _ | .sbox _ | .isbox _ => true
  | .keyexp | .subb | .shrow | .mixc | .isubb | .ishrow | .imixc => true
  | .encblk | .decblk | .pad | .unpad | .cbcenc | .cbcdec | .clr => true

end Sys2Proof
end

