-- ==== Sys2Proof/Decode.lean ====
section
/-! DEFINITION. Decoding a command word (R90, R96) and, after it, the encoder written from the same rule R92. Decoding
is total: each of the 2^32 words is one of the twenty commands or is rejected by name (R94). -/

namespace Sys2Proof

/-- Why a word is no command (R93 to R95). The engine raises `IllegalCommand` for each of them alike (R96). -/
inductive DecodeError where
  | reservedOpcode
  | rsvNotZero
  | bNotZero
  | aNotZero
  | rconRange
  | roundRange
  deriving DecidableEq, Repr

/-- `op = w[31:24]` (R90). -/
def opField (w : CmdWord) : Byte := w.extractLsb' 24 8

/-- `rsv = w[23:16]` (R90). -/
def rsvField (w : CmdWord) : Byte := w.extractLsb' 16 8

/-- `a = w[15:8]` (R90). -/
def aField (w : CmdWord) : Byte := w.extractLsb' 8 8

/-- `b = w[7:0]` (R90). -/
def bField (w : CmdWord) : Byte := w.extractLsb' 0 8

/-- The opcode map (R92), read from opcode to command; `none` for the 236 reserved values (R94). -/
def instrOfOp (op a b : Byte) : Option Instr :=
  match op.toNat with
  | 0x10 => some (.xtime a)
  | 0x11 => some (.gmul a b)
  | 0x20 => some (.sbox a)
  | 0x21 => some (.isbox a)
  | 0x22 => some (.rcon a)
  | 0x30 => some .keyexp
  | 0x40 => some .subb
  | 0x41 => some .shrow
  | 0x42 => some .mixc
  | 0x43 => some (.addrk a)
  | 0x50 => some .isubb
  | 0x51 => some .ishrow
  | 0x52 => some .imixc
  | 0x60 => some .encblk
  | 0x61 => some .decblk
  | 0x70 => some .pad
  | 0x71 => some .unpad
  | 0x80 => some .cbcenc
  | 0x81 => some .cbcdec
  | 0xF0 => some .clr
  | _ => none

/-- The six opcodes with an operand `a` (R93). -/
def hasOperandA (op : Byte) : Bool :=
  op == 0x10 || op == 0x11 || op == 0x20 || op == 0x21 || op == 0x22 || op == 0x43

/-- Decode (R96): the checks in the rule's order, the first that fails naming the rejection. -/
def decode (w : CmdWord) : Except DecodeError Instr :=
  match instrOfOp (opField w) (aField w) (bField w) with
  | none => .error .reservedOpcode
  | some i =>
    if rsvField w ≠ 0x00 then .error .rsvNotZero
    else if opField w ≠ 0x11 ∧ bField w ≠ 0x00 then .error .bNotZero
    else if hasOperandA (opField w) = false ∧ aField w ≠ 0x00 then .error .aNotZero
    else if opField w = 0x22 ∧ ((aField w).toNat < 1 ∨ 10 < (aField w).toNat) then .error .rconRange
    else if opField w = 0x43 ∧ 10 < (aField w).toNat then .error .roundRange
    else .ok i

/-- A word of format `C32` with `rsv` zero (R90, R93). -/
def packWord (op a b : Byte) : CmdWord := op ++ (0x00 : Byte) ++ a ++ b

/-- The encoder (R92): the word of a command. -/
def encode : Instr → CmdWord
  | .xtime a => packWord 0x10 a 0
  | .gmul a b => packWord 0x11 a b
  | .sbox a => packWord 0x20 a 0
  | .isbox a => packWord 0x21 a 0
  | .rcon a => packWord 0x22 a 0
  | .keyexp => packWord 0x30 0 0
  | .subb => packWord 0x40 0 0
  | .shrow => packWord 0x41 0 0
  | .mixc => packWord 0x42 0 0
  | .addrk a => packWord 0x43 a 0
  | .isubb => packWord 0x50 0 0
  | .ishrow => packWord 0x51 0 0
  | .imixc => packWord 0x52 0 0
  | .encblk => packWord 0x60 0 0
  | .decblk => packWord 0x61 0 0
  | .pad => packWord 0x70 0 0
  | .unpad => packWord 0x71 0 0
  | .cbcenc => packWord 0x80 0 0
  | .cbcdec => packWord 0x81 0 0
  | .clr => packWord 0xF0 0 0

/-- What the decoder reads from the bits `w` of a row of `nbits` bits, bit 0 least significant. A command is one
register write of 32 bits, not bytes in a memory (R71), so the word is `w` itself; bits above `nbits` are zero. -/
def decodeTableWord (nbits w : Nat) : Option Instr :=
  if nbits ≤ 32 ∧ w < 2 ^ nbits then
    match decode (BitVec.ofNat 32 w) with
    | .ok i => some i
    | .error _ => none
  else none

end Sys2Proof
end

