-- ==== Sys2Proof/Config.lean ====
section
/-! DEFINITION. What is fixed for the machine: the constants of R8 and R9, and the one free value of the spec, the
answer of the random number generator (R10, U1). The open parameter `CAP` is carried in State (log entry 4), the open
parameter `REGBASE` is the platform's and nothing depends on it (R75). -/

namespace Sys2Proof.Config

/-- `KEYLEN` (R8): the only legal key length, in bytes. -/
def keyLen : Nat := 16

/-- `KCAP` (R9): the capacity of the key buffer, in bytes. -/
def keyCapacity : Nat := 32

/-- What `DOUT` holds beyond `CAP` (R26): `DOUT` has capacity `CAP + 32`. -/
def outputExtra : Nat := 32

/-- `REDUCE` (R8): the constant `xtime` adds when the high bit was set. -/
def reduce : Byte := 0x1B

/-- The shortest ciphertext `CBCDEC` accepts (R8, R181). -/
def minCiphertext : Nat := 32

/-- FREE VALUE (R10, R182, U1; log entry 3): the sixteen bytes the RNG agent answers to draw number `n` when no answer
is lined up in State. It has no body: nothing is known of it, so what is proved holds for every answer. -/
opaque draw16 : Nat → Block

end Sys2Proof.Config
end

