-- ==== Sys2Proof/Machine/State.lean ====
section
/-! DEFINITION. The state of the machine: the spec's list of R20 whole, and the model's own fields for what stands
outside the engine (the parameter `CAP`, the host's events, the RNG's answers). Buffers are bare sequences of their
length, as R38 allows: `KLEN`, `DINLEN` and `DOUTLEN` are their lengths (log entry 5). -/

namespace Sys2Proof.Machine

/-- The error kinds (R200), in the order of their codes. -/
inductive ErrorCode where
  /-- 0: the command completed. -/
  | ok
  /-- 1: `KLEN != 16`. -/
  | invalidKeyLength
  /-- 2: a ciphertext or padded buffer of a bad length. -/
  | invalidCiphertextLength
  /-- 3: padding out of range or mismatched. -/
  | invalidPadding
  /-- 4: the word is not one of the twenty commands. -/
  | illegalCommand
  /-- 5: `SV == 0` when a command needs `RK`. -/
  | noSchedule
  deriving DecidableEq, Repr

/-- One event the outside world presents to the engine (R19): a host transaction, a command, or reset. -/
inductive HostEvent where
  /-- The platform asserts reset between commands (R230). -/
  | reset
  /-- `HostLoadKey(K)` (R67). -/
  | loadKey (key : List Byte)
  /-- `HostLoadData(M)` (R68). -/
  | loadData (message : List Byte)
  /-- `HostWriteS(B)` (R69). -/
  | writeS (block : Block)
  /-- `HostWriteS(i, v)` (R69). -/
  | writeSByte (i : Fin 16) (v : Byte)
  /-- The write of a word to `CMD`, which executes it as a command (R29). -/
  | writeCmd (w : CmdWord)
  /-- A host write of a value to the register with an id (R35). -/
  | writeId (id : Nat) (v : CmdWord)
  /-- `HostRead(id, i)` (R70). -/
  | read (id i : Nat)
  /-- A whole-register read (R70). -/
  | readAll (id : Nat)
  deriving DecidableEq, Repr

/-- The state. Fields of the spec first (R20), then the model's own. -/
structure State where
  /-- `KBUF` (R21): the bytes `KBUF[0]` to `KBUF[KLEN-1]`. -/
  kbuf : List Byte
  /-- `RK` (R22). -/
  rk : Schedule
  /-- `SV` (R22). -/
  sv : Bool
  /-- `S` (R23). -/
  sReg : Block
  /-- `DIN` (R25): the bytes `DIN[0]` to `DIN[DINLEN-1]`. -/
  din : List Byte
  /-- `DOUT` (R26): the bytes `DOUT[0]` to `DOUT[DOUTLEN-1]`. -/
  dout : List Byte
  /-- `RES` (R27). -/
  res : Byte
  /-- `ERR` (R28). -/
  err : ErrorCode
  /-- MODEL'S OWN: the open parameter `CAP` (R10), `none` for unbounded; nothing writes it (log entry 4). -/
  cap : Option Nat
  /-- MODEL'S OWN: the events the outside world has issued and the engine has not yet served, oldest first (R72). -/
  pending : List HostEvent
  /-- MODEL'S OWN: the elements the last host read returned (R70); the engine never reads it. -/
  readback : List Nat
  /-- MODEL'S OWN: answers the RNG agent has lined up, the next first (R10, log entry 3). -/
  rng : List Block
  /-- MODEL'S OWN: how many draws have been taken (log entry 3). -/
  draws : Nat
  deriving DecidableEq, Repr

/-- The machine has no fault: every word decodes and every command terminates (R94, R240), and an engine error is a
next state with `ERR` written (R201). So no constructor: nobody raises a fault (log entry 16). -/
inductive Fault where
  deriving DecidableEq, Repr

/-- Why a step gives no meaning. -/
inductive Refusal where
  /-- Raised by `exec` for a command without a meaning: here none. Safe: the machine stops where hardware goes on. -/
  | notModelled (mnemonic : String)
  /-- Raised by the event `loadKey` with more than 32 bytes, which "is not a transaction of the host" (R67, U8). Safe:
  the spec has no such step. -/
  | keyLoadTooLong
  /-- Raised by the event `loadData` with more than `CAP` bytes, which "is not a transaction of the host" (R68, U7).
  Safe: the spec has no such step. -/
  | dataLoadTooLong
  /-- Raised by the event `writeId` for `S`, `KBUF` or `DIN`, whose writes are transactions of their own and whose
  elements are bytes: "There is no access narrower or wider than the element widths" (R73). Safe: no such step. -/
  | notATransaction
  deriving DecidableEq, Repr

/-- What a meaning answers. -/
abbrev Result := Host.Outcome State Fault Refusal

/-- `KLEN` (R32). -/
def State.klen (s : State) : Nat := s.kbuf.length

/-- `DINLEN` (R32). -/
def State.dinlen (s : State) : Nat := s.din.length

/-- `DOUTLEN` (R32). -/
def State.doutlen (s : State) : Nat := s.dout.length

/-- The machine right after reset (R37, R230): all bytes zero, all lengths zero, `SV == 0`, `ERR == 0`. The model's own
fields hold the values of log entries 1, 3, 4 and 8 (DESIGN CHOICE). -/
def State.reset : State where
  kbuf := []
  rk := zeroSchedule
  sv := false
  sReg := zeroBlock
  din := []
  dout := []
  res := 0x00
  err := .ok
  cap := none
  pending := []
  readback := []
  rng := []
  draws := 0

end Sys2Proof.Machine
end

