-- ==== Sys2Proof/Machine/Ops.lean ====
section
/-! DEFINITION. The named operations over the engine's registers and byte spaces: sequences (R13), the writes of each
register (R14), the reads of the seven spaces (R60, R66), the draw (R15), the discard (R184), the clearing of all state
(R37), and the two ends of a command, success (R210) and `raise` (R201). -/

namespace Sys2Proof.Machine

/-- `slice(B, i, n)` (R13); asked only for `i + n <= len(B)` (log entry 19). -/
def slice (B : List Byte) (i n : Nat) : List Byte := (B.drop i).take n

/-- The first sixteen bytes of a sequence as a block; asked only for sixteen bytes or more (log entry 19). -/
def blockOfList (B : List Byte) : Block := Vector.ofFn fun i => B.getD i.val 0

/-! ## Writes of the registers (R14)

One operation a register; each writes the register named and nothing else. -/

/-- `ERR <- e`. -/
def State.setErr (e : ErrorCode) (s : State) : State := { s with err := e }

/-- `RES <- v`. -/
def State.setRes (v : Byte) (s : State) : State := { s with res := v }

/-- `S <- B`. -/
def State.setS (B : Block) (s : State) : State := { s with sReg := B }

/-- `KBUF <- K` with `KLEN <- len(K)`. -/
def State.setKbuf (K : List Byte) (s : State) : State := { s with kbuf := K }

/-- `DIN <- M` with `DINLEN <- len(M)`. -/
def State.setDin (M : List Byte) (s : State) : State := { s with din := M }

/-- `DOUT <- B` with `DOUTLEN <- len(B)`. -/
def State.setDout (B : List Byte) (s : State) : State := { s with dout := B }

/-- `RK <- W; SV <- 1`. -/
def State.setSchedule (W : Schedule) (s : State) : State := { s with rk := W, sv := true }

/-- `RK <- rep(0x00, 176); SV <- 0`. -/
def State.dropSchedule (s : State) : State := { s with rk := zeroSchedule, sv := false }

/-- The events not yet served. -/
def State.setPending (es : List HostEvent) (s : State) : State := { s with pending := es }

/-- What a host read returned. -/
def State.setReadback (vs : List Nat) (s : State) : State := { s with readback := vs }

/-! ## The byte spaces (R60, R66) -/

/-- The seven byte-addressed spaces (R60). -/
inductive Space where
  | sbox | isbox | rcon | kbuf | rk | din | dout
  deriving DecidableEq, Repr

/-- The bytes of a space in address order, up to its current length (R66). -/
def spaceBytes (s : State) : Space → List Byte
  | .sbox => sboxRom
  | .isbox => isboxRom
  | .rcon => rconRom
  | .kbuf => s.kbuf
  | .rk => s.rk.toList
  | .din => s.din
  | .dout => s.dout

/-- The first address of a space (R60): each is indexed from 0, `RCON` from 1. -/
def spaceBase : Space → Nat
  | .rcon => 1
  | .sbox | .isbox | .kbuf | .rk | .din | .dout => 0

/-- `MemRead(space, addr, n)` (R66): no side effect. Asked only within the space; beyond its end the answer is shorter
(log entry 19), and below its first address, which only `RCON` has (index 0), it is that from the first address
(DESIGN CHOICE, log entry 20). -/
def memRead (s : State) (sp : Space) (addr n : Nat) : List Byte :=
  slice (spaceBytes s sp) (addr - spaceBase sp) n

/-- `MemRead(space, addr, 1)[0]`. -/
def memReadByte (s : State) (sp : Space) (addr : Nat) : Byte := (memRead s sp addr 1).headD 0

/-- `MemRead(space, addr, 16)` as a block. -/
def memReadBlock (s : State) (sp : Space) (addr : Nat) : Block := blockOfList (memRead s sp addr 16)

/-- `MemWrite(DOUT, DOUTLEN, 16, B); DOUTLEN <- DOUTLEN + 16` (R66): writes to `DOUT` are appends. -/
def State.appendDout (B : Block) (s : State) : State := s.setDout (s.dout ++ B.toList)

/-- `n` bytes within a capacity; `none` is the unbounded `CAP` (R10, D8). -/
def fits (n : Nat) : Option Nat → Bool
  | none => true
  | some c => n ≤ c

/-- The canonical form of the buffers (R38): each is a bare sequence within its capacity, `KBUF` of 32 bytes, `DIN` of
`CAP`, `DOUT` of `CAP + 32`. -/
def Memory.wf (s : State) : Bool :=
  s.kbuf.length ≤ Config.keyCapacity
    && fits s.din.length s.cap
    && fits s.dout.length (s.cap.map (· + Config.outputExtra))

/-! ## The draw (R15, R182)

Log entry 3: the answer lined up first in State, else the free value of Config. -/

/-- What `draw16()` answers now. -/
def State.nextDraw (s : State) : Block := s.rng.headD (Config.draw16 s.draws)

/-- The state once that answer is taken. -/
def State.takeDraw (s : State) : State := { s with rng := s.rng.tail, draws := s.draws + 1 }

/-! ## Discard and clearing -/

/-- `Discard` (R184): `RK`, `SV` and `S` zero. `PREV` is local to the two commands (R24, log entry 6). -/
def State.discard (s : State) : State := (s.dropSchedule).setS zeroBlock

/-- Every register and buffer at its reset value (R37), as reset (R230) and `CLR` (R195) leave them; what is not the
engine's (the parameter, the events, the answers) stays. -/
def State.clearEngine (s : State) : State :=
  { State.reset with
    cap := s.cap, pending := s.pending, readback := s.readback, rng := s.rng, draws := s.draws }

/-! ## The two ends of a command -/

/-- The fail action (R201), the engine's whole exception entry: `ERR <- code` and nothing else; there is no vector, no
saved address and no return from it (R206). -/
def raise (e : ErrorCode) (s : State) : Result := .next (s.setErr e)

/-- The success action (R210): `ERR <- 0`. -/
def complete (s : State) : Result := .next (s.setErr .ok)

end Sys2Proof.Machine
end

