-- ==== Sys2Proof/Machine/Operands.lean ====
section
/-! DEFINITION. The operand forms (R91). A data byte stands as it is; the two operands with a range are read here, and
outside the range they are `none`: the command is then no command (R95). The decoder has refused such a word before
(R96); the check stands here too so that a meaning is right on every term (log entry 13). -/

namespace Sys2Proof.Machine

/-- The table index of `RCON a` (R91): legal 1 to 10. -/
def rconIndex (a : Byte) : Option Nat :=
  if 1 ≤ a.toNat ∧ a.toNat ≤ 10 then some a.toNat else none

/-- The round-key number of `ADDRK a` (R91): legal 0 to 10. -/
def roundNumber (a : Byte) : Option (Fin 11) :=
  if h : a.toNat ≤ 10 then some ⟨a.toNat, by omega⟩ else none

/-- The key operand of `KEYEXP`, `CBCENC` and `CBCDEC`: `slice(KBUF, 0, 16)` (R133, R182, R183). -/
def keyOperand (s : State) : Block := memReadBlock s .kbuf 0

end Sys2Proof.Machine
end

