-- ==== Sys2Proof/Machine/GfUnit.lean ====
section
/-! DEFINITION. The Galois-field unit (40_gf_arithmetic.md): `xtime` (R111), `mul` (R112) and the commands `XTIME`
(R113) and `GMUL` (R114). -/

namespace Sys2Proof.Machine

/-- `xtime(b)` (R111): shift left by one, then reduce if the high bit of the input was set. -/
def xtime (b : Byte) : Byte :=
  if b.getLsbD 7 then (b <<< 1) ^^^ Config.reduce else b <<< 1

/-- The loop of `mul` (R112): `n` steps left, bit `i` of `b` next, `p` accumulated, `a` doubled so far. -/
def mulFrom (b : Byte) : (n i : Nat) → (p a : Byte) → Byte
  | 0, _, p, _ => p
  | n + 1, i, p, a => mulFrom b n (i + 1) (if b.getLsbD i then p ^^^ a else p) (xtime a)

/-- `mul(a, b)` (R112): eight steps, least significant bit of `b` first. -/
def mul (a b : Byte) : Byte := mulFrom b 8 0 0x00 a

/-- `XTIME a` (R113). -/
def execXtime (a : Byte) (s : State) : Result := complete (s.setRes (xtime a))

/-- `GMUL a, b` (R114). -/
def execGmul (a b : Byte) (s : State) : Result := complete (s.setRes (mul a b))

end Sys2Proof.Machine
end

