-- ==== Sys2Proof/Machine/RoundSteps.lean ====
section
/-! DEFINITION. The forward round steps (43_round_steps.md): R140 to R143, and the commands `SUBB` (R144), `SHROW`
(R145), `MIXC` (R146) and `ADDRK` (R147). A block is the column-major matrix of R62: row `r`, column `c` is byte
`r + 4*c`. -/

namespace Sys2Proof.Machine

/-- The block whose byte in row `r`, column `c` is `f r c` (R62). -/
def blockOfMatrix (f : (r c : Fin 4) → Byte) : Block :=
  Vector.ofFn fun i => f ⟨i.val % 4, by omega⟩ ⟨i.val / 4, by omega⟩

/-- The byte of a block in row `r`, column `c` (R62). -/
def matrixByte (B : Block) (r c : Fin 4) : Byte := B[r.val + 4 * c.val]'(by omega)

/-- `subbytes(B)` (R140). -/
def subbytes (B : Block) : Block := Vector.ofFn fun i => sboxAt B[i]

/-- `shiftrows(B)` (R141): row `r` rotated left by `r`. -/
def shiftrows (B : Block) : Block := blockOfMatrix fun r c => matrixByte B r (c + r)

/-- `mixcolumns(B)` (R142): each column by the circulant of {02, 03, 01, 01}. -/
def mixcolumns (B : Block) : Block :=
  blockOfMatrix fun r c =>
    let a0 := matrixByte B 0 c
    let a1 := matrixByte B 1 c
    let a2 := matrixByte B 2 c
    let a3 := matrixByte B 3 c
    match r with
    | 0 => mul a0 0x02 ^^^ mul a1 0x03 ^^^ a2 ^^^ a3
    | 1 => a0 ^^^ mul a1 0x02 ^^^ mul a2 0x03 ^^^ a3
    | 2 => a0 ^^^ a1 ^^^ mul a2 0x02 ^^^ mul a3 0x03
    | 3 => mul a0 0x03 ^^^ a1 ^^^ a2 ^^^ mul a3 0x02

/-- Round key `n` of a schedule (R135): `slice(W, 16*n, 16)`. -/
def roundKey (W : Schedule) (n : Fin 11) : Block :=
  Vector.ofFn fun i => W[16 * n.val + i.val]'(by omega)

/-- `addroundkey(B, W, n)` (R143): bytewise exclusive-or with round key `n`. -/
def addroundkey (B : Block) (W : Schedule) (n : Fin 11) : Block := xorBlock B (roundKey W n)

/-- `SUBB` (R144). -/
def execSubb (s : State) : Result := complete (s.setS (subbytes s.sReg))

/-- `SHROW` (R145). -/
def execShrow (s : State) : Result := complete (s.setS (shiftrows s.sReg))

/-- `MIXC` (R146). -/
def execMixc (s : State) : Result := complete (s.setS (mixcolumns s.sReg))

/-- `ADDRK a` (R147): the range of `a` first (R203), then the schedule. -/
def execAddrk (a : Byte) (s : State) : Result :=
  match roundNumber a with
  | none => raise .illegalCommand s
  | some n =>
    if s.sv then complete (s.setS (addroundkey s.sReg s.rk n)) else raise .noSchedule s

end Sys2Proof.Machine
end

