-- ==== Sys2Proof/Machine/InverseSteps.lean ====
section
/-! DEFINITION. The inverse round steps (44_inverse_round_steps.md): R150 to R152, and the commands `ISUBB` (R153),
`ISHROW` (R154) and `IMIXC` (R155). -/

namespace Sys2Proof.Machine

/-- `invsubbytes(B)` (R150). -/
def invsubbytes (B : Block) : Block := Vector.ofFn fun i => isboxAt B[i]

/-- `invshiftrows(B)` (R151): row `r` rotated right by `r`. -/
def invshiftrows (B : Block) : Block := blockOfMatrix fun r c => matrixByte B r (c - r)

/-- `invmixcolumns(B)` (R152): each column by the circulant of {0e, 0b, 0d, 09}. -/
def invmixcolumns (B : Block) : Block :=
  blockOfMatrix fun r c =>
    let a0 := matrixByte B 0 c
    let a1 := matrixByte B 1 c
    let a2 := matrixByte B 2 c
    let a3 := matrixByte B 3 c
    match r with
    | 0 => mul a0 0x0E ^^^ mul a1 0x0B ^^^ mul a2 0x0D ^^^ mul a3 0x09
    | 1 => mul a0 0x09 ^^^ mul a1 0x0E ^^^ mul a2 0x0B ^^^ mul a3 0x0D
    | 2 => mul a0 0x0D ^^^ mul a1 0x09 ^^^ mul a2 0x0E ^^^ mul a3 0x0B
    | 3 => mul a0 0x0B ^^^ mul a1 0x0D ^^^ mul a2 0x09 ^^^ mul a3 0x0E

/-- `ISUBB` (R153). -/
def execIsubb (s : State) : Result := complete (s.setS (invsubbytes s.sReg))

/-- `ISHROW` (R154). -/
def execIshrow (s : State) : Result := complete (s.setS (invshiftrows s.sReg))

/-- `IMIXC` (R155). -/
def execImixc (s : State) : Result := complete (s.setS (invmixcolumns s.sReg))

end Sys2Proof.Machine
end

