-- ==== Sys2Proof/Machine/BlockTransform.lean ====
section
/-! DEFINITION. The block transform (45_block_transform.md): `forward` (R160), `inverse` (R161), and the commands
`ENCBLK` (R162) and `DECBLK` (R163). -/

namespace Sys2Proof.Machine

/-- One full forward round (R160). -/
def forwardRound (W : Schedule) (X : Block) (n : Fin 11) : Block :=
  addroundkey (mixcolumns (shiftrows (subbytes X))) W n

/-- `forward(B, W)` (R160): nine full rounds and a final one without the column mix. -/
def forward (B : Block) (W : Schedule) : Block :=
  let X := [1, 2, 3, 4, 5, 6, 7, 8, 9].foldl (forwardRound W) (addroundkey B W 0)
  addroundkey (shiftrows (subbytes X)) W 10

/-- One full inverse round (R161). -/
def inverseRound (W : Schedule) (X : Block) (n : Fin 11) : Block :=
  invsubbytes (invshiftrows (invmixcolumns (addroundkey X W n)))

/-- `inverse(B, W)` (R161): the same schedule in falling order. -/
def inverse (B : Block) (W : Schedule) : Block :=
  let X := invsubbytes (invshiftrows (addroundkey B W 10))
  addroundkey ([9, 8, 7, 6, 5, 4, 3, 2, 1].foldl (inverseRound W) X) W 0

/-- `ENCBLK` (R162). -/
def execEncblk (s : State) : Result :=
  if s.sv then complete (s.setS (forward s.sReg s.rk)) else raise .noSchedule s

/-- `DECBLK` (R163). -/
def execDecblk (s : State) : Result :=
  if s.sv then complete (s.setS (inverse s.sReg s.rk)) else raise .noSchedule s

end Sys2Proof.Machine
end

