-- ==== Sys2Proof/Machine/KeySchedule.lean ====
section
/-! DEFINITION. The key schedule expander (42_key_schedule.md): R130 to R132, and the command `KEYEXP` (R133). -/

namespace Sys2Proof.Machine

/-- `rotword(t)` (R130). -/
def rotword (t : KeyWord) : KeyWord := #v[t[1], t[2], t[3], t[0]]

/-- `subword(t)` (R131). -/
def subword (t : KeyWord) : KeyWord := #v[sboxAt t[0], sboxAt t[1], sboxAt t[2], sboxAt t[3]]

/-- `t[0] = t[0] ^ c` (R132): the round constant goes into the first byte only. -/
def addConstant (c : Byte) (t : KeyWord) : KeyWord := #v[t[0] ^^^ c, t[1], t[2], t[3]]

/-- Word `k` of the bytes `W` produced so far: `W[4k .. 4k+3]` (R63). -/
def wordOf (W : List Byte) (k : Nat) : KeyWord :=
  #v[W.getD (4 * k) 0, W.getD (4 * k + 1) 0, W.getD (4 * k + 2) 0, W.getD (4 * k + 3) 0]

/-- The word that is exclusive-ored in to produce word `k` (R132): the previous word, transformed when `k` starts a
round key. -/
def scheduleWord (W : List Byte) (k : Nat) : KeyWord :=
  let t := wordOf W (k - 1)
  if k % 4 = 0 then addConstant (rconAt (k / 4)) (subword (rotword t)) else t

/-- The four bytes of word `k` (R132): the word sixteen bytes earlier, exclusive-or `t`. -/
def newWord (W : List Byte) (k : Nat) : List Byte :=
  let t := scheduleWord W k
  let u := wordOf W (k - 4)
  [u[0] ^^^ t[0], u[1] ^^^ t[1], u[2] ^^^ t[2], u[3] ^^^ t[3]]

/-- The loop of `expand` (R132): `n` words left, word `k` next. -/
def expandFrom : (n k : Nat) → (W : List Byte) → List Byte
  | 0, _, W => W
  | n + 1, k, W => expandFrom n (k + 1) (W ++ newWord W k)

/-- `expand(K)` (R132): words 4 to 43 after the sixteen key bytes. -/
def expand (K : Block) : Schedule :=
  let W := expandFrom 40 4 K.toList
  Vector.ofFn fun i => W.getD i.val 0

/-- `KEYEXP` (R133). -/
def execKeyexp (s : State) : Result :=
  if s.klen = Config.keyLen then complete (s.setSchedule (expand (keyOperand s)))
  else raise .invalidKeyLength s

end Sys2Proof.Machine
end

