-- ==== Sys2Proof/Machine/Padding.lean ====
section
/-! DEFINITION. The padder and unpadder (46_padding.md): `pad` (R170), `unpad` (R171), and the commands `PAD` (R172)
and `UNPAD` (R173). -/

namespace Sys2Proof.Machine

/-- How many bytes `pad` appends to `len` bytes (R170): 1 to 16. -/
def padCount (len : Nat) : Nat := 16 - len % 16

/-- `padlen(L)` (R170). -/
def padlen (len : Nat) : Nat := 16 * (len / 16 + 1)

/-- `pad(D)` (R170). -/
def pad (D : List Byte) : List Byte :=
  D ++ List.replicate (padCount D.length) (BitVec.ofNat 8 (padCount D.length))

/-- `zext_8(last(P))` (R171); asked only for a non-empty `P`. -/
def lastByte (P : List Byte) : Nat := (P.getLastD 0).toNat

/-- `unpad(P)` (R171): the checks in the rule's order. -/
def unpad (P : List Byte) : Except ErrorCode (List Byte) :=
  if P.length = 0 ∨ P.length % 16 ≠ 0 then .error .invalidCiphertextLength
  else
    let n := lastByte P
    if n < 1 ∨ 16 < n then .error .invalidPadding
    else if (P.drop (P.length - n)).all (· == BitVec.ofNat 8 n) then .ok (P.take (P.length - n))
    else .error .invalidPadding

/-- `PAD` (R172). -/
def execPad (s : State) : Result :=
  complete ((s.setDout []).setDout (pad s.din))

/-- `UNPAD` (R173): `DOUT` is emptied first, so a failure leaves no output. -/
def execUnpad (s : State) : Result :=
  match unpad s.din with
  | .ok D => complete ((s.setDout []).setDout D)
  | .error e => raise e (s.setDout [])

end Sys2Proof.Machine
end

