-- ==== Sys2Proof/Machine/Cbc.lean ====
section
/-! DEFINITION. The CBC chaining controller (47_cbc.md): the functions `cbc_encrypt` (R180) and `cbc_decrypt` (R181),
and the commands `CBCENC` (R182) and `CBCDEC` (R183), written as the rules' own loops over the registers. `PREV` is the
argument `prev` of those loops (R24, log entry 6). -/

namespace Sys2Proof.Machine

/-! ## The functions -/

/-- The loop of `cbc_encrypt` (R180): `n` blocks of `M` left; what it appends to the output. -/
def cbcEncryptFrom (W : Schedule) : (n : Nat) → (M : List Byte) → (prev : Block) → List Byte
  | 0, _, _ => []
  | n + 1, M, prev =>
    let Y := forward (xorBlock (blockOfList (slice M 0 16)) prev) W
    Y.toList ++ cbcEncryptFrom W n (M.drop 16) Y

/-- `cbc_encrypt(K, P, IV)` (R180). -/
def cbcEncrypt (K : Block) (P : List Byte) (IV : Block) : List Byte :=
  IV.toList ++ cbcEncryptFrom (expand K) ((pad P).length / 16) (pad P) IV

/-- The loop of `cbc_decrypt` (R181): `n` blocks of `C` left; the recovered blocks. -/
def cbcDecryptFrom (W : Schedule) : (n : Nat) → (C : List Byte) → (prev : Block) → List Byte
  | 0, _, _ => []
  | n + 1, C, prev =>
    let Y := blockOfList (slice C 0 16)
    (xorBlock (inverse Y W) prev).toList ++ cbcDecryptFrom W n (C.drop 16) Y

/-- `cbc_decrypt(K, C)` (R181). -/
def cbcDecrypt (K : Block) (C : List Byte) : Except ErrorCode (List Byte) :=
  if C.length < Config.minCiphertext ∨ C.length % 16 ≠ 0 then .error .invalidCiphertextLength
  else
    unpad (cbcDecryptFrom (expand K) (C.length / 16 - 1) (C.drop 16) (blockOfList (slice C 0 16)))

/-! ## The commands -/

/-- The loop of `CBCENC` (R182): blocks `i` to `i + n - 1` of `M`, through `S`, appended to `DOUT`. -/
def cbcencLoop (M : List Byte) : (n i : Nat) → (prev : Block) → State → State
  | 0, _, _, s => s
  | n + 1, i, prev, s =>
    let s1 := s.setS (xorBlock (blockOfList (slice M (16 * i) 16)) prev)
    let s2 := s1.setS (forward s1.sReg s1.rk)
    cbcencLoop M n (i + 1) s2.sReg (s2.appendDout s2.sReg)

/-- `CBCENC` once the key check has passed (R182). -/
def cbcencRun (s : State) : Result :=
  let s1 := s.setSchedule (expand (keyOperand s))
  let iv := s1.nextDraw
  let s2 := (s1.takeDraw).setDout iv.toList
  let M := pad s2.din
  complete (cbcencLoop M (M.length / 16) 0 iv s2).discard

/-- `CBCENC` (R182). -/
def execCbcenc (s : State) : Result :=
  let s0 := s.setDout []
  if s0.klen = Config.keyLen then cbcencRun s0 else raise .invalidKeyLength s0.discard

/-- The loop of `CBCDEC` (R183): blocks `i` to `i + n - 1` of `DIN`, through `S`; the state and the recovered `M`. -/
def cbcdecLoop : (n i : Nat) → (prev : Block) → (M : List Byte) → State → State × List Byte
  | 0, _, _, M, s => (s, M)
  | n + 1, i, prev, M, s =>
    let Y := memReadBlock s .din (16 * i)
    let s1 := s.setS Y
    let s2 := s1.setS (inverse s1.sReg s1.rk)
    cbcdecLoop n (i + 1) Y (M ++ (xorBlock s2.sReg prev).toList) s2

/-- `CBCDEC` once the two length checks have passed (R183): nothing of `M` reaches `DOUT` before `unpad` accepts it. -/
def cbcdecRun (s : State) : Result :=
  let s1 := s.setSchedule (expand (keyOperand s))
  let r := cbcdecLoop (s1.dinlen / 16 - 1) 1 (memReadBlock s1 .din 0) [] s1
  match unpad r.2 with
  | .ok D => complete ((r.1).setDout D).discard
  | .error e => raise e (r.1).discard

/-- `CBCDEC` (R183): the key check before the length check (R203, log entry 11). -/
def execCbcdec (s : State) : Result :=
  let s0 := s.setDout []
  if s0.klen ≠ Config.keyLen then raise .invalidKeyLength s0.discard
  else if s0.dinlen < Config.minCiphertext ∨ s0.dinlen % 16 ≠ 0 then
    raise .invalidCiphertextLength s0.discard
  else cbcdecRun s0

end Sys2Proof.Machine
end

