-- ==== Sys2Proof/Machine/System.lean ====
section
/-! DEFINITION. The system command `CLR` (48_system.md). -/

namespace Sys2Proof.Machine

/-- `CLR` (R195): every register and buffer to its reset value. -/
def execClr (s : State) : Result := complete s.clearEngine

end Sys2Proof.Machine
end

