-- ==== Sys2Proof/Machine/Tables.lean ====
section
/-! DEFINITION. The commands that read a ROM: `SBOX` (R123), `ISBOX` (R124), `RCON` (R125). -/

namespace Sys2Proof.Machine

/-- `SBOX a` (R123). -/
def execSbox (a : Byte) (s : State) : Result := complete (s.setRes (memReadByte s .sbox a.toNat))

/-- `ISBOX a` (R124). -/
def execIsbox (a : Byte) (s : State) : Result := complete (s.setRes (memReadByte s .isbox a.toNat))

/-- `RCON a` (R125); an index outside 1 to 10 is `IllegalCommand` (R95). -/
def execRcon (a : Byte) (s : State) : Result :=
  match rconIndex a with
  | some k => complete (s.setRes (memReadByte s .rcon k))
  | none => raise .illegalCommand s

end Sys2Proof.Machine
end

