-- ==== Sys2Proof/Machine/Dispatch.lean ====
section
/-! DEFINITION. Which meaning each command has: one arm a constructor, in the opcode table's order (R92). -/

namespace Sys2Proof.Machine

/-- The meaning of a command (R96: "execute the command's rule with operands a, b"). -/
def exec (i : Instr) (s : State) : Host.Outcome State Fault Refusal :=
  match i with
  | .xtime a => Sys2Proof.Machine.execXtime a s
  | .gmul a b => Sys2Proof.Machine.execGmul a b s
  | .sbox a => Sys2Proof.Machine.execSbox a s
  | .isbox a => Sys2Proof.Machine.execIsbox a s
  | .rcon a => Sys2Proof.Machine.execRcon a s
  | .keyexp => Sys2Proof.Machine.execKeyexp s
  | .subb => Sys2Proof.Machine.execSubb s
  | .shrow => Sys2Proof.Machine.execShrow s
  | .mixc => Sys2Proof.Machine.execMixc s
  | .addrk a => Sys2Proof.Machine.execAddrk a s
  | .isubb => Sys2Proof.Machine.execIsubb s
  | .ishrow => Sys2Proof.Machine.execIshrow s
  | .imixc => Sys2Proof.Machine.execImixc s
  | .encblk => Sys2Proof.Machine.execEncblk s
  | .decblk => Sys2Proof.Machine.execDecblk s
  | .pad => Sys2Proof.Machine.execPad s
  | .unpad => Sys2Proof.Machine.execUnpad s
  | .cbcenc => Sys2Proof.Machine.execCbcenc s
  | .cbcdec => Sys2Proof.Machine.execCbcdec s
  | .clr => Sys2Proof.Machine.execClr s

end Sys2Proof.Machine
end

