-- ==== Sys2Proof/Machine/Flags.lean ====
section
/-! DEFINITION. The only flags of the engine (R31): the error code `ERR` with its numbers (R200) and the register
`STATUS` put together from `ERR` and `SV` (R28). -/

namespace Sys2Proof.Machine

/-- The code of an error kind in `ERR` (R200). -/
def errBits : ErrorCode → BitVec 3
  | .ok => 0
  | .invalidKeyLength => 1
  | .invalidCiphertextLength => 2
  | .invalidPadding => 3
  | .illegalCommand => 4
  | .noSchedule => 5

/-- `STATUS` (R28): bits [7:4] zero, bit [3] `SV`, bits [2:0] `ERR`. -/
def status (s : State) : Byte := (0 : BitVec 4) ++ BitVec.ofBool s.sv ++ errBits s.err

end Sys2Proof.Machine
end

