-- ==== Sys2Proof/Machine/HostPort.lean ====
section
/-! DEFINITION. What an event of the outside world does (R67 to R70, R96, R230). Each is indivisible (R73); none but a
command writes `ERR` (R28). -/

namespace Sys2Proof.Machine

/-! ## Commands -/

/-- A host write of `w` to `CMD` (R29, R96): decode, then execute; a word that is no command raises `IllegalCommand`
before anything is read or written. -/
def runCommand (w : CmdWord) (s : State) : Result :=
  match decode w with
  | .ok i => exec i s
  | .error _ => raise .illegalCommand s

/-! ## Loads and writes -/

/-- `HostLoadKey(K)` (R67): also `SV <- 0` and `RK <- rep(0x00, 176)`. More than 32 bytes is no transaction. -/
def hostLoadKey (K : List Byte) (s : State) : Result :=
  if K.length ≤ Config.keyCapacity then .next (s.setKbuf K).dropSchedule else .refused .keyLoadTooLong

/-- `HostLoadData(M)` (R68). More than `CAP` bytes is no transaction. -/
def hostLoadData (M : List Byte) (s : State) : Result :=
  if fits M.length s.cap then .next (s.setDin M) else .refused .dataLoadTooLong

/-- `HostWriteS(B)` (R69). -/
def hostWriteS (B : Block) (s : State) : Result := .next (s.setS B)

/-- `HostWriteS(i, v)` (R69). -/
def hostWriteSByte (i : Fin 16) (v : Byte) (s : State) : Result := .next (s.setS (s.sReg.set i.val v))

/-- A host write of a word to a register id (R35): id 0x00 is `CMD`; `S`, `KBUF` and `DIN` are written by their own
transactions of bytes (R73), so this is none (log entry 9); a write to a read-only or an unused id is ignored. -/
def hostWriteId (id : Nat) (v : CmdWord) (s : State) : Result :=
  match id with
  | 0x00 => runCommand v s
  | 0x10 | 0x12 | 0x13 => .refused .notATransaction
  | _ => .next s

/-! ## Reads -/

/-- The elements a whole-register read returns (R35, R70): a buffer as the sequence of its length (R14), `CMD` and an
unused id as a single 0. -/
def regElements (s : State) (id : Nat) : List Nat :=
  match id with
  | 0x01 => [(status s).toNat]
  | 0x02 => [s.res.toNat]
  | 0x03 => [s.klen]
  | 0x04 => [s.dinlen]
  | 0x05 => [s.doutlen]
  | 0x10 => s.sReg.toList.map (·.toNat)
  | 0x11 => s.rk.toList.map (·.toNat)
  | 0x12 => s.kbuf.map (·.toNat)
  | 0x13 => s.din.map (·.toNat)
  | 0x14 => s.dout.map (·.toNat)
  | _ => [0]

/-- `HostRead(id, i)` (R70): element `i`; beyond a buffer's length or capacity, at an unused id and at `CMD`, 0. R70 states
no answer past the last element of a register that is no buffer (`S[16]`, `RK[176]`, `STATUS[1]`, `RES[1]`, a length
register at 1); 0 there too is the model's choice, DESIGN CHOICE (log entry 21). -/
def hostReadValue (s : State) (id i : Nat) : Nat := (regElements s id).getD i 0

/-- The event of an element read (R70): the engine is unchanged, the host has its answer (log entry 8). -/
def hostRead (id i : Nat) (s : State) : Result := .next (s.setReadback [hostReadValue s id i])

/-- The event of a whole-register read (R70). -/
def hostReadAll (id : Nat) (s : State) : Result := .next (s.setReadback (regElements s id))

/-! ## Reset and the choice of event -/

/-- Reset asserted by the platform (R230). -/
def assertReset (s : State) : Result := .next s.clearEngine

/-- Serve one event. -/
def serve (e : HostEvent) (s : State) : Result :=
  match e with
  | .reset => assertReset s
  | .loadKey K => hostLoadKey K s
  | .loadData M => hostLoadData M s
  | .writeS B => hostWriteS B s
  | .writeSByte i v => hostWriteSByte i v s
  | .writeCmd w => runCommand w s
  | .writeId id v => hostWriteId id v s
  | .read id i => hostRead id i s
  | .readAll id => hostReadAll id s

/-- The next event in the total order (R72), or none: the engine is then idle and nothing changes (R206, R215, log
entry 2). -/
def serveNext (s : State) : Result :=
  match s.pending with
  | [] => .next s
  | e :: rest => serve e (s.setPending rest)

end Sys2Proof.Machine
end

