-- ==== Sys2Proof/Machine/Step.lean ====
section
/-! DEFINITION. One step (R19, R72): the engine serves the oldest event the outside world has issued. -/

namespace Sys2Proof.Machine

/-- One step of the machine. -/
def step (s : State) : Host.Outcome State Fault Refusal := serveNext s

/-- The state with the word `w` as the host's next write to `CMD`, before the events already issued: the engine fetches
nothing, a command is handed to it (R33, log entry 1). A command is 32 bits, so the bits of `w` above `nbits` are zero. -/
def State.withFetchWord (s : State) (nbits w : Nat) : State :=
  s.setPending (.writeCmd (BitVec.ofNat 32 (w % 2 ^ nbits)) :: s.pending)

end Sys2Proof.Machine
end

