-- ==== Sys2Proof/Safety.lean ====
section
/-! DEFINITION. What holds of every state between events (R38): the terms the claims about runs use. -/

namespace Sys2Proof.Safety

open Sys2Proof.Machine

/-- The parameter `CAP` is at least 32 where it is bounded (R10). -/
def capLegal (s : State) : Prop := ∀ c, s.cap = some c → 32 ≤ c

/-- The lengths are within the capacities (R38, first line). -/
def lengthsLegal (s : State) : Prop :=
  s.klen ≤ 32 ∧ ∀ c, s.cap = some c → s.dinlen ≤ c ∧ s.doutlen ≤ c + 32

/-- The host reads 0x00 at and beyond the length of each buffer (R38, second line). -/
def zeroBeyondLength (s : State) : Prop :=
  (∀ i, s.klen ≤ i → hostReadValue s 0x12 i = 0)
    ∧ (∀ i, s.dinlen ≤ i → hostReadValue s 0x13 i = 0)
    ∧ ∀ i, s.doutlen ≤ i → hostReadValue s 0x14 i = 0

/-- The schedule belongs to the key (R22): `SV == 1` implies `KLEN == 16` and `RK == expand(KBUF)`, `SV == 0` implies
that `RK` is all zero. -/
def scheduleCoherent (s : State) : Prop :=
  (s.sv = true → s.klen = 16 ∧ s.rk = expand (keyOperand s)) ∧ (s.sv = false → s.rk = zeroSchedule)

/-- `ERR` is one of 0 to 5 and `STATUS[7:4] == 0` (R38, last line). -/
def statusLegal (s : State) : Prop :=
  ((status s).extractLsb' 0 3).toNat ≤ 5 ∧ (status s).extractLsb' 4 4 = 0

/-- R38, with the constraint of R10 on the parameter. -/
def kept (s : State) : Prop :=
  capLegal s ∧ lengthsLegal s ∧ zeroBeyondLength s ∧ scheduleCoherent s ∧ statusLegal s

end Sys2Proof.Safety
end

