-- ==== Sys2Proof/Certificates/Slice0/Obligations.lean ====
section
/-! DEFINITION. The statements for the provers, from the spec's numbered rules. First the words they use, then the
statements (each command rule of this spec is marked by it as its own decision, D<n> of 92_eei_decisions.md, and is stated
as the rule stands): machine and decoding, host and reset, Galois field, tables, key schedule, round steps, block transform,
padding, CBC, whole-machine rules, invariants. -/

namespace Sys2Proof.Claims

open Sys2Proof.Machine

/-! ## Words of the statements -/

/-- The word of format `C32` with the four fields of R90. -/
def word (op rsv a b : Byte) : CmdWord := op ++ rsv ++ a ++ b

/-- `s` with `e` as the next event, before those already issued. -/
def present (e : HostEvent) (s : State) : State := { s with pending := e :: s.pending }

/-- `s` with `w` as the host's next write to `CMD`. -/
def issue (w : CmdWord) (s : State) : State := present (.writeCmd w) s

/-- A command whose operand `a` is a data byte and whose result `f a` goes to `RES`: its meaning, the word that runs
it, and the words with its opcode that are no command. -/
def UnaryByteCommand (i : Byte → Instr) (op : Byte) (f : Byte → Byte) : Prop :=
  ∀ (a : Byte) (s : State),
    exec (i a) s = .next { s with res := f a, err := .ok }
      ∧ step (issue (word op 0x00 a 0x00) s) = .next { s with res := f a, err := .ok }
      ∧ ∀ rsv b : Byte, rsv ≠ 0x00 ∨ b ≠ 0x00 →
          step (issue (word op rsv a b) s) = .next { s with err := .illegalCommand }

/-- Of the words with opcode `op`, only the one with all other fields zero is a command, and it runs `i`. -/
def NoOperandWord (i : Instr) (op : Byte) : Prop :=
  ∀ s : State,
    step (issue (word op 0x00 0x00 0x00) s) = exec i s
      ∧ ∀ rsv a b : Byte, rsv ≠ 0x00 ∨ a ≠ 0x00 ∨ b ≠ 0x00 →
          step (issue (word op rsv a b) s) = .next { s with err := .illegalCommand }

/-- A command that applies `f` to `S` and needs no schedule. -/
def StateCommand (i : Instr) (op : Byte) (f : Block → Block) : Prop :=
  (∀ s : State, exec i s = .next { s with sReg := f s.sReg, err := .ok }) ∧ NoOperandWord i op

/-- A command that applies `f` to `S` and `RK` and needs a schedule. -/
def ScheduleCommand (i : Instr) (op : Byte) (f : Block → Schedule → Block) : Prop :=
  (∀ s : State, s.sv = true → exec i s = .next { s with sReg := f s.sReg s.rk, err := .ok })
    ∧ (∀ s : State, s.sv = false → exec i s = .next { s with err := .noSchedule })
    ∧ NoOperandWord i op

/-- A row of the opcode map (R92): match, mask, and the range of operand `a`. -/
structure OpcodeRow where
  pattern : CmdWord
  mask : CmdWord
  least : Nat
  most : Nat

/-- The opcode map (R92). -/
def opcodeMap : List OpcodeRow :=
  [⟨0x10000000, 0xFFFF00FF, 0, 255⟩, ⟨0x11000000, 0xFFFF0000, 0, 255⟩, ⟨0x20000000, 0xFFFF00FF, 0, 255⟩,
   ⟨0x21000000, 0xFFFF00FF, 0, 255⟩, ⟨0x22000000, 0xFFFF00FF, 1, 10⟩, ⟨0x30000000, 0xFFFFFFFF, 0, 255⟩,
   ⟨0x40000000, 0xFFFFFFFF, 0, 255⟩, ⟨0x41000000, 0xFFFFFFFF, 0, 255⟩, ⟨0x42000000, 0xFFFFFFFF, 0, 255⟩,
   ⟨0x43000000, 0xFFFF00FF, 0, 10⟩] ++
  [⟨0x50000000, 0xFFFFFFFF, 0, 255⟩, ⟨0x51000000, 0xFFFFFFFF, 0, 255⟩, ⟨0x52000000, 0xFFFFFFFF, 0, 255⟩,
   ⟨0x60000000, 0xFFFFFFFF, 0, 255⟩, ⟨0x61000000, 0xFFFFFFFF, 0, 255⟩, ⟨0x70000000, 0xFFFFFFFF, 0, 255⟩,
   ⟨0x71000000, 0xFFFFFFFF, 0, 255⟩, ⟨0x80000000, 0xFFFFFFFF, 0, 255⟩, ⟨0x81000000, 0xFFFFFFFF, 0, 255⟩,
   ⟨0xF0000000, 0xFFFFFFFF, 0, 255⟩]

/-- `w` is one of the twenty commands: `w & mask == match` for a row of R92 and the stated operand range holds. -/
def IsCommand (w : CmdWord) : Prop :=
  ∃ r ∈ opcodeMap, w &&& r.mask = r.pattern ∧ r.least ≤ (w >>> 8).toNat % 256 ∧ (w >>> 8).toNat % 256 ≤ r.most

/-- The twenty opcodes of R92. -/
def opcodes : List Byte :=
  [0x10, 0x11, 0x20, 0x21, 0x22, 0x30, 0x40, 0x41, 0x42, 0x43, 0x50, 0x51, 0x52, 0x60, 0x61, 0x70, 0x71,
   0x80, 0x81, 0xF0]

/-- Every register and buffer of the engine at the value of R37. -/
def EngineReset (t : State) : Prop :=
  t.kbuf = [] ∧ t.klen = 0 ∧ (∀ i : Fin 176, t.rk[i] = 0x00) ∧ t.sv = false ∧ (∀ i : Fin 16, t.sReg[i] = 0x00)
    ∧ t.din = [] ∧ t.dinlen = 0 ∧ t.dout = [] ∧ t.doutlen = 0 ∧ t.res = 0x00 ∧ t.err = .ok ∧ status t = 0x00

/-- What is not the engine's is the same in `s` and `t`: the parameter, the events to come, the last answer to the
host, the RNG's answers. -/
def SameOutside (s t : State) : Prop :=
  t.cap = s.cap ∧ t.pending = s.pending ∧ t.readback = s.readback ∧ t.rng = s.rng ∧ t.draws = s.draws

/-- The trailing bytes are valid padding (R171): the last byte is a number `n` in 1 to 16 and the last `n` bytes all
equal it. -/
def goodPadding (P : List Byte) : Prop :=
  1 ≤ (P.getLastD 0).toNat ∧ (P.getLastD 0).toNat ≤ 16
    ∧ ∀ j ∈ List.range' 1 (P.getLastD 0).toNat, P.getD (P.length - j) 0 = P.getLastD 0

/-- Block `i` of a byte sequence: bytes `16*i` to `16*i + 15` (R65). -/
def blockAt (B : List Byte) (i : Nat) : Block := Vector.ofFn fun j => B.getD (16 * i + j.val) 0

/-- The padded plaintext `M` that `CBCDEC` recovers (R181), before `unpad`. -/
def recovered (K : Block) (C : List Byte) : List Byte :=
  cbcDecryptFrom (expand K) (C.length / 16 - 1) (C.drop 16) (blockAt C 0)

/-- The forward step commands in the order of R165. -/
def forwardSequence : List Instr :=
  [.addrk 0] ++ [1, 2, 3, 4, 5, 6, 7, 8, 9].flatMap (fun n => [.subb, .shrow, .mixc, .addrk n])
    ++ [.subb, .shrow, .addrk 10]

/-- The inverse step commands in the order of R165. -/
def inverseSequence : List Instr :=
  [.addrk 10, .ishrow, .isubb] ++ [9, 8, 7, 6, 5, 4, 3, 2, 1].flatMap (fun n => [.addrk n, .imixc, .ishrow, .isubb])
    ++ [.addrk 0]

/-- Commands as the events that issue their words. -/
def issued (is : List Instr) : List HostEvent := is.map fun i => .writeCmd (encode i)

/-- The byte as a polynomial over GF(2) (R110): coefficient `b[i]` at `x^i`. -/
noncomputable def poly (b : Byte) : Polynomial (ZMod 2) :=
  ∑ i ∈ Finset.range 8, if b.getLsbD i then Polynomial.X ^ i else 0

/-- The AES reduction polynomial `x^8 + x^4 + x^3 + x + 1` (R110). -/
noncomputable def reductionPoly : Polynomial (ZMod 2) :=
  Polynomial.X ^ 8 + Polynomial.X ^ 4 + Polynomial.X ^ 3 + Polynomial.X + 1

/-- The error a command ends with: the table of R202, in the priority of R203. -/
def ErrorOf (i : Instr) (s : State) (e : ErrorCode) : Prop :=
  match i with
  | .rcon a => e = if a.toNat < 1 ∨ 10 < a.toNat then .illegalCommand else .ok
  | .addrk a => e = if 10 < a.toNat then .illegalCommand else if s.sv = false then .noSchedule else .ok
  | .keyexp | .cbcenc => e = if s.klen ≠ 16 then .invalidKeyLength else .ok
  | .encblk | .decblk => e = if s.sv = false then .noSchedule else .ok
  | .unpad =>
    if s.dinlen = 0 ∨ s.dinlen % 16 ≠ 0 then e = .invalidCiphertextLength
    else (goodPadding s.din ∧ e = .ok) ∨ (¬ goodPadding s.din ∧ e = .invalidPadding)
  | .cbcdec =>
    if s.klen ≠ 16 then e = .invalidKeyLength
    else if s.dinlen < 32 ∨ s.dinlen % 16 ≠ 0 then e = .invalidCiphertextLength
    else (goodPadding (recovered (blockAt s.kbuf 0) s.din) ∧ e = .ok)
      ∨ (¬ goodPadding (recovered (blockAt s.kbuf 0) s.din) ∧ e = .invalidPadding)
  | .xtime _ | .gmul _ _ | .sbox _ | .isbox _ | .subb | .shrow | .mixc | .isubb | .ishrow | .imixc | .pad | .clr =>
    e = .ok

/-- The column "engine writes" of R60. -/
def writesSpace : Instr → Space → Bool
  | .keyexp, .rk => true
  | .cbcenc, .rk | .cbcenc, .dout | .cbcdec, .rk | .cbcdec, .dout => true
  | .pad, .dout | .unpad, .dout => true
  | .clr, .kbuf | .clr, .rk | .clr, .din | .clr, .dout => true
  | _, _ => false

/-- The commands that may write `RES` (R27, R195). -/
def writesRes : Instr → Bool
  | .xtime _ | .gmul _ _ | .sbox _ | .isbox _ | .rcon _ | .clr => true
  | _ => false

/-- The commands that may write `S` (R23). -/
def writesS : Instr → Bool
  | .subb | .shrow | .mixc | .addrk _ | .isubb | .ishrow | .imixc | .encblk | .decblk | .cbcenc | .cbcdec | .clr => true
  | _ => false

/-- The commands that may write `SV` (R22). -/
def writesSv : Instr → Bool
  | .keyexp | .cbcenc | .cbcdec | .clr => true
  | _ => false

/-- The commands that read `SV` (R31). -/
def readsSv : Instr → Bool
  | .addrk _ | .encblk | .decblk => true
  | _ => false

end Sys2Proof.Claims

open Sys2Proof Sys2Proof.Machine Sys2Proof.Claims

/-! ## Machine and decoding -/

/-- R29, R96: when the next event writes a word that decodes to `i`, the step is `exec i` on the state without that
event. `step` adds nothing around `exec`: there is no program counter (R33). -/
def Obligations.StepRunsDecodedCommand : Prop :=
  ∀ (s : State) (w : CmdWord) (i : Instr) (rest : List HostEvent),
    s.pending = .writeCmd w :: rest → decode w = .ok i →
      i.wellFormed = true ∧ step s = exec i { s with pending := rest }

/-- R93, R94, R95: a word that is no row of R92 with its operand in range, whether by its opcode, a field that must be
zero, or its operand, only sets `ERR` to `IllegalCommand`; every other word is a command. The rules are the spec's own
decisions D5 and D18. -/
def Obligations.EveryWordIsCommandOrIllegal : Prop :=
  (∀ (w : CmdWord) (s : State), ¬ IsCommand w → step (issue w s) = .next { s with err := .illegalCommand })
    ∧ (∀ w : CmdWord, IsCommand w → ∃ i, decode w = .ok i)
    ∧ (∀ (op rsv a b : Byte) (s : State), op ∉ opcodes →
        step (issue (word op rsv a b) s) = .next { s with err := .illegalCommand })
    ∧ ((List.range 256).filter fun n => !opcodes.contains (BitVec.ofNat 8 n)).length = 236
    ∧ (∀ (op rsv a b : Byte) (s : State), rsv ≠ 0x00 →
        step (issue (word op rsv a b) s) = .next { s with err := .illegalCommand })
    ∧ (∀ (op rsv a b : Byte) (s : State), op ∉ [0x10, 0x11, 0x20, 0x21, 0x22, 0x43] → a ≠ 0x00 →
        step (issue (word op rsv a b) s) = .next { s with err := .illegalCommand })
    ∧ (∀ (op rsv a b : Byte) (s : State), op ≠ 0x11 → b ≠ 0x00 →
        step (issue (word op rsv a b) s) = .next { s with err := .illegalCommand })
    ∧ (∀ (a : Byte) (s : State), a = 0 ∨ 11 ≤ a.toNat →
        step (issue (word 0x22 0x00 a 0x00) s) = .next { s with err := .illegalCommand })
    ∧ (∀ (a : Byte) (s : State), 11 ≤ a.toNat →
        step (issue (word 0x43 0x00 a 0x00) s) = .next { s with err := .illegalCommand })

/-- Decoding the word of a well-formed command gives that command, at every operand (R91, R92, R96). -/
def Obligations.DecodeOfEncode : Prop :=
  ∀ i : Instr, i.wellFormed = true → decode (encode i) = .ok i

/-- A word that decodes is the word of what it decodes to, and that is well-formed: no bit of a command word is
ignored (R92, R93). -/
def Obligations.EncodeOfDecode : Prop :=
  ∀ (w : CmdWord) (i : Instr), decode w = .ok i → encode i = w ∧ i.wellFormed = true

/-- Some words of section 10 of the test vectors. -/
def Obligations.SampleWordsDecode : Prop :=
  decode 0x10005700 = .ok (.xtime 0x57) ∧ decode 0x1100FFFF = .ok (.gmul 0xff 0xff)
    ∧ decode 0x20005300 = .ok (.sbox 0x53) ∧ decode 0x22000A00 = .ok (.rcon 10)
    ∧ decode 0x43000A00 = .ok (.addrk 10) ∧ decode 0x80000000 = .ok .cbcenc
    ∧ decode 0x22000B00 = .error .rconRange ∧ decode 0x30010000 = .error .rsvNotZero

/-! ## Host and reset -/

/-- R67: `HostLoadKey(K)` with at most 32 bytes. A longer load is not a transaction; that its event is refused under this
name is the model's choice (log entry 9, DESIGN CHOICE). -/
def Obligations.HostLoadKeyEffect : Prop :=
  ∀ (K : List Byte) (s : State),
    (K.length ≤ 32 →
      step (present (.loadKey K) s)
          = .next { s with kbuf := K, sv := false, rk := Vector.replicate 176 0x00 }
        ∧ ∀ t, step (present (.loadKey K) s) = .next t →
            t.klen = K.length ∧ t.err = s.err
              ∧ ∀ i, i < 32 → hostReadValue t 0x12 i
                  = ((K ++ List.replicate (32 - K.length) (0x00 : Byte)).getD i 0x00).toNat)
      ∧ (32 < K.length → step (present (.loadKey K) s) = .refused .keyLoadTooLong)

/-- R68: `HostLoadData(M)` with at most `CAP` bytes. A longer load is not a transaction; that its event is refused under
this name is the model's choice (log entry 9, DESIGN CHOICE). -/
def Obligations.HostLoadDataEffect : Prop :=
  ∀ (M : List Byte) (s : State),
    ((∀ c, s.cap = some c → M.length ≤ c) →
      step (present (.loadData M) s) = .next { s with din := M }
        ∧ ∀ t, step (present (.loadData M) s) = .next t →
            t.dinlen = M.length
              ∧ ∀ c i, s.cap = some c → i < c → hostReadValue t 0x13 i
                  = ((M ++ List.replicate (c - M.length) (0x00 : Byte)).getD i 0x00).toNat)
      ∧ ∀ c, s.cap = some c → c < M.length → step (present (.loadData M) s) = .refused .dataLoadTooLong

/-- R69: `HostWriteS(B)` and its byte-wide form. -/
def Obligations.HostWriteSEffect : Prop :=
  ∀ (s : State),
    (∀ B : Block, step (present (.writeS B) s) = .next { s with sReg := B })
      ∧ ∀ (i : Fin 16) (v : Byte), ∃ t, step (present (.writeSByte i v) s) = .next t
          ∧ t = { s with sReg := t.sReg } ∧ t.sReg[i] = v ∧ ∀ j : Fin 16, j ≠ i → t.sReg[j] = s.sReg[j]

/-- R70: `HostRead(id, i)` answers element `i` and changes nothing but the host's answer; beyond a
buffer's length or capacity, at an unused id and at `CMD` the answer is 0; a whole-register read is the same as reading
each element. The field that holds the answer is the model's (log entry 8), and so is the answer 0 past the last element
of `STATUS`, `RES`, the length registers, `S` and `RK` (log entry 21, DESIGN CHOICE). -/
def Obligations.HostReadEffect : Prop :=
  ∀ (s : State) (id i : Nat),
    step (present (.read id i) s) = .next { s with readback := [hostReadValue s id i] }
      ∧ (∃ L, step (present (.readAll id) s) = .next { s with readback := L } ∧ hostReadValue s id i = L.getD i 0)
      ∧ hostReadValue s 0x00 i = 0
      ∧ hostReadValue s 0x01 i = (if i = 0 then (status s).toNat else 0)
      ∧ hostReadValue s 0x02 i = (if i = 0 then s.res.toNat else 0)
      ∧ hostReadValue s 0x03 i = (if i = 0 then s.kbuf.length else 0)
      ∧ hostReadValue s 0x04 i = (if i = 0 then s.din.length else 0)
      ∧ hostReadValue s 0x05 i = (if i = 0 then s.dout.length else 0)
      ∧ hostReadValue s 0x10 i = (s.sReg.toList.getD i 0x00).toNat
      ∧ hostReadValue s 0x11 i = (s.rk.toList.getD i 0x00).toNat
      ∧ hostReadValue s 0x12 i = (s.kbuf.getD i 0x00).toNat
      ∧ hostReadValue s 0x13 i = (s.din.getD i 0x00).toNat
      ∧ hostReadValue s 0x14 i = (s.dout.getD i 0x00).toNat
      ∧ ((6 ≤ id ∧ id ≤ 0x0F) ∨ 0x15 ≤ id → hostReadValue s id i = 0)

/-- R35: a host write to a read-only or an unused id is ignored, and a write to id 0 is the write to `CMD`. -/
def Obligations.HostWriteByIdEffect : Prop :=
  ∀ (s : State) (id : Nat) (v : CmdWord),
    (id ∈ [0x01, 0x02, 0x03, 0x04, 0x05, 0x11, 0x14] ∨ (6 ≤ id ∧ id ≤ 0x0F) ∨ 0x15 ≤ id →
      step (present (.writeId id v) s) = .next s)
      ∧ step (present (.writeId 0x00 v) s) = step (issue v s)

/-- R28, R200: the fields of `STATUS` and the six codes of `ERR`. -/
def Obligations.StatusFields : Prop :=
  ∀ s : State,
    (status s).extractLsb' 4 4 = 0 ∧ (status s).getLsbD 3 = s.sv
      ∧ ((status s).extractLsb' 0 3).toNat
          = match s.err with
            | .ok => 0
            | .invalidKeyLength => 1
            | .invalidCiphertextLength => 2
            | .invalidPadding => 3
            | .illegalCommand => 4
            | .noSchedule => 5

/-- R37: after reset and after `CLR` every register and buffer of the engine is zero or empty, and every host read
answers 0. That the events to come, the last answer to the host and the RNG's answers survive is the model's reading
(log entry 14, DEDUCED), and so is the answer 0 past the last element of a register that is no buffer (log entry 21,
DESIGN CHOICE); the reset values of the model's own fields are its choice (log entries 1, 3, 4, 8) and are not stated. -/
def Obligations.ResetValues : Prop :=
  EngineReset State.reset
    ∧ (∀ s, ∃ t, step (present .reset s) = .next t ∧ EngineReset t ∧ SameOutside s t)
    ∧ (∀ s, ∃ t, exec .clr s = .next t ∧ EngineReset t ∧ SameOutside s t)
    ∧ ∀ t id i, EngineReset t → hostReadValue t id i = 0

/-- R231: what each command does in the reset state. -/
def Obligations.CommandsInResetState : Prop :=
  exec .keyexp State.reset = .next { State.reset with err := .invalidKeyLength }
    ∧ exec .cbcenc State.reset = .next { State.reset with err := .invalidKeyLength }
    ∧ exec .cbcdec State.reset = .next { State.reset with err := .invalidKeyLength }
    ∧ (∀ a : Byte, a.toNat ≤ 10 → exec (.addrk a) State.reset = .next { State.reset with err := .noSchedule })
    ∧ exec .encblk State.reset = .next { State.reset with err := .noSchedule }
    ∧ exec .decblk State.reset = .next { State.reset with err := .noSchedule }
    ∧ exec .unpad State.reset = .next { State.reset with err := .invalidCiphertextLength }
    ∧ exec .pad State.reset = .next { State.reset with dout := List.replicate 16 0x10 }

/-- R28: `ERR` "is not changed by host transactions": no load, write or read of the host changes it. -/
def Obligations.HostTransactionsKeepErr : Prop :=
  ∀ (s t : State) (e : HostEvent), e ≠ .reset → (∀ w, e ≠ .writeCmd w) → (∀ v, e ≠ .writeId 0x00 v) →
    step (present e s) = .next t → t.err = s.err

/-- R240, R94: every command answers a next state, whatever the state; and a step answers a next state unless its
event is one the spec says is not a transaction (R67, R68, R73), which is refused. With no event the engine is idle
(log entry 2, the model's reading). -/
def Obligations.EveryStepAnswers : Prop :=
  (∀ (i : Instr) (s : State), ∃ t, exec i s = .next t)
    ∧ (∀ s : State, s.pending = [] → step s = .next s)
    ∧ ∀ (s : State) (e : HostEvent),
        (∃ t, step (present e s) = .next t)
          ∨ (∃ K, e = .loadKey K ∧ 32 < K.length)
          ∨ (∃ M c, e = .loadData M ∧ s.cap = some c ∧ c < M.length)
          ∨ ∃ id v, e = .writeId id v ∧ id ∈ [0x10, 0x12, 0x13]

/-! ## Galois field -/

/-- R111, R113: `XTIME a` completes with `xtime(a)` in `RES`, written out. -/
def Obligations.XtimeCommand : Prop :=
  UnaryByteCommand .xtime 0x10 fun b => if b.getLsbD 7 then (b <<< 1) ^^^ 0x1B else b <<< 1

/-- R112, R114: `GMUL a, b` completes with `mul(a, b)` in `RES`, its eight steps written out. -/
def Obligations.GmulCommand : Prop :=
  ∀ (a b : Byte) (s : State),
    let p : Byte := ((List.range 8).map fun i => if b.getLsbD i then xtime^[i] a else 0x00).foldl (· ^^^ ·) 0x00
    exec (.gmul a b) s = .next { s with res := p, err := .ok }
      ∧ step (issue (word 0x11 0x00 a b) s) = .next { s with res := p, err := .ok }
      ∧ ∀ rsv : Byte, rsv ≠ 0x00 →
          step (issue (word 0x11 rsv a b) s) = .next { s with err := .illegalCommand }

/-- R115, every law of the rule. -/
def Obligations.GaloisFieldLaws : Prop :=
  (∀ a b : Byte, mul a b = mul b a)
    ∧ (∀ a b c : Byte, mul a (b ^^^ c) = mul a b ^^^ mul a c)
    ∧ (∀ a b c : Byte, mul (mul a b) c = mul a (mul b c))
    ∧ (∀ a : Byte, mul a 0x01 = a ∧ mul a 0x02 = xtime a ∧ mul a 0x03 = xtime a ^^^ a
        ∧ mul a 0x09 = xtime (xtime (xtime a)) ^^^ a
        ∧ mul a 0x0B = xtime (xtime (xtime a)) ^^^ xtime a ^^^ a
        ∧ mul a 0x0D = xtime (xtime (xtime a)) ^^^ xtime (xtime a) ^^^ a
        ∧ mul a 0x0E = xtime (xtime (xtime a)) ^^^ xtime (xtime a) ^^^ xtime a)
    ∧ ∀ a : Byte, a ≠ 0x00 → ∃! b : Byte, mul a b = 0x01

/-- R110: bytes are the polynomials over GF(2) of degree below 8, addition is `^`, and `mul` is the product of
polynomials modulo `x^8 + x^4 + x^3 + x + 1`. -/
def Obligations.MulIsPolynomialProduct : Prop :=
  Function.Injective poly
    ∧ (∀ a b : Byte, poly (a ^^^ b) = poly a + poly b)
    ∧ ∀ a b : Byte, poly (mul a b) = (poly a * poly b) %ₘ reductionPoly

/-! ## Tables -/

/-- R123, R124: `SBOX a` and `ISBOX a` complete with the table's entry number `a` in `RES`. -/
def Obligations.SboxCommands : Prop :=
  UnaryByteCommand .sbox 0x20 (fun a => sboxRom.getD a.toNat 0x00)
    ∧ UnaryByteCommand .isbox 0x21 fun a => isboxRom.getD a.toNat 0x00

/-- R122, R125: `RCON a` for `a` from 1 to 10 completes with `RCON[a]`, which is `x^(a-1)`; any other word with its
opcode is no command. -/
def Obligations.RconCommand : Prop :=
  (∀ (a : Byte) (s : State), 1 ≤ a.toNat → a.toNat ≤ 10 →
      exec (.rcon a) s = .next { s with res := xtime^[a.toNat - 1] 0x01, err := .ok }
        ∧ step (issue (word 0x22 0x00 a 0x00) s) = .next { s with res := xtime^[a.toNat - 1] 0x01, err := .ok })
    ∧ ∀ (rsv a b : Byte) (s : State), a.toNat < 1 ∨ 10 < a.toNat ∨ rsv ≠ 0x00 ∨ b ≠ 0x00 →
        step (issue (word 0x22 rsv a b) s) = .next { s with err := .illegalCommand }

/-- R126: the two tables are inverse permutations, without fixed points and opposite fixed points; and the rule's spot
values. -/
def Obligations.SboxPermutations : Prop :=
  Function.Bijective sboxAt
    ∧ (∀ a : Byte, isboxAt (sboxAt a) = a ∧ sboxAt (isboxAt a) = a ∧ sboxAt a ≠ a ∧ sboxAt a ≠ a ^^^ 0xFF)
    ∧ sboxAt 0x00 = 0x63 ∧ sboxAt 0x01 = 0x7C ∧ sboxAt 0x10 = 0xCA ∧ sboxAt 0x53 = 0xED ∧ sboxAt 0xFF = 0x16
    ∧ isboxAt 0x00 = 0x52 ∧ isboxAt 0x63 = 0x00 ∧ isboxAt 0xED = 0x53 ∧ isboxAt 0xFF = 0x7D

/-- The definition that R120 says the forward table satisfies: field inverse, then the affine map. The spec marks it
as general knowledge. -/
def Obligations.SboxIsAffineOfInverse : Prop :=
  ∀ a t : Byte, (a = 0x00 → t = 0x00) → (a ≠ 0x00 → mul a t = 0x01) →
    sboxAt a = t ^^^ t.rotateLeft 1 ^^^ t.rotateLeft 2 ^^^ t.rotateLeft 3 ^^^ t.rotateLeft 4 ^^^ 0x63

/-! ## Key schedule -/

/-- R133: `KEYEXP` with a key of sixteen bytes completes with its expansion in `RK` and `SV` set; with any other length
it only sets `ERR`, and then, in a state that keeps R38, there was no schedule. -/
def Obligations.KeyexpCommand : Prop :=
  (∀ (K : Block) (s : State), s.kbuf = K.toList →
      exec .keyexp s = .next { s with rk := expand K, sv := true, err := .ok })
    ∧ (∀ s : State, s.klen ≠ 16 →
        exec .keyexp s = .next { s with err := .invalidKeyLength }
          ∧ (Safety.kept s → s.sv = false ∧ s.rk = Vector.replicate 176 0x00))
    ∧ NoOperandWord .keyexp 0x30

/-- R130, R131, R132: round key 0 is the key; each later word is the word sixteen bytes earlier exclusive-or the
previous word, which for the first word of a round key is rotated, substituted, and given its round constant on byte
0. -/
def Obligations.ExpandRecurrence : Prop :=
  ∀ K : Block,
    let W : Nat → Byte := fun n => (expand K).toList.getD n 0x00
    (∀ i : Fin 16, W i.val = K[i])
      ∧ ∀ k j : Nat, 4 ≤ k → k ≤ 43 → j < 4 →
          W (4 * k + j) = W (4 * k - 16 + j) ^^^
            (if k % 4 = 0 then
              sboxAt (W (4 * k - 4 + (j + 1) % 4)) ^^^ (if j = 0 then rconAt (k / 4) else 0x00)
            else W (4 * k - 4 + j))

/-- R134: round key 0 is the key; a round key is determined by the one before it; and the key is determined by any one
round key and its number. -/
def Obligations.RoundKeysDetermineEachOther : Prop :=
  (∀ K : Block, roundKey (expand K) 0 = K)
    ∧ (∀ (K K' : Block) (n : Fin 10),
        roundKey (expand K) n.castSucc = roundKey (expand K') n.castSucc →
          roundKey (expand K) n.succ = roundKey (expand K') n.succ)
    ∧ ∀ (K K' : Block) (n : Fin 11), roundKey (expand K) n = roundKey (expand K') n → K = K'

/-! ## Round steps -/

/-- R144, R145, R146, R153, R154, R155: the six commands that apply a step to `S` complete in every state, change `S`
and `ERR` only, and need no schedule. -/
def Obligations.StepCommands : Prop :=
  StateCommand .subb 0x40 subbytes ∧ StateCommand .shrow 0x41 shiftrows ∧ StateCommand .mixc 0x42 mixcolumns
    ∧ StateCommand .isubb 0x50 invsubbytes ∧ StateCommand .ishrow 0x51 invshiftrows
    ∧ StateCommand .imixc 0x52 invmixcolumns

/-- R147: `ADDRK a` for `a` from 0 to 10, with a schedule, completes with `S` exclusive-or round key `a`; without one
it only sets `ERR`; any other word with its opcode is no command. -/
def Obligations.AddrkCommand : Prop :=
  (∀ (n : Fin 11) (s : State), s.sv = true →
      ∃ t, exec (.addrk (BitVec.ofNat 8 n.val)) s = .next t
        ∧ step (issue (word 0x43 0x00 (BitVec.ofNat 8 n.val) 0x00) s) = .next t
        ∧ t = { s with sReg := t.sReg, err := .ok }
        ∧ ∀ i : Fin 16, t.sReg[i] = s.sReg[i] ^^^ s.rk[16 * n.val + i.val])
    ∧ (∀ (a : Byte) (s : State), a.toNat ≤ 10 → s.sv = false →
        exec (.addrk a) s = .next { s with err := .noSchedule }
          ∧ step (issue (word 0x43 0x00 a 0x00) s) = .next { s with err := .noSchedule })
    ∧ ∀ (rsv a b : Byte) (s : State), 11 ≤ a.toNat ∨ rsv ≠ 0x00 ∨ b ≠ 0x00 →
        step (issue (word 0x43 rsv a b) s) = .next { s with err := .illegalCommand }

/-- R140, R141, R142, R143: each forward step, byte by byte. -/
def Obligations.ForwardStepsByByte : Prop :=
  ∀ (B : Block) (W : Schedule),
    (∀ i : Fin 16, (subbytes B)[i] = sboxRom.getD B[i].toNat 0x00)
      ∧ (∀ r c : Fin 4, (shiftrows B)[r.val + 4 * c.val] = B[r.val + 4 * ((c.val + r.val) % 4)])
      ∧ (∀ c : Fin 4,
          let a0 := B[4 * c.val]
          let a1 := B[4 * c.val + 1]
          let a2 := B[4 * c.val + 2]
          let a3 := B[4 * c.val + 3]
          (mixcolumns B)[4 * c.val] = mul a0 0x02 ^^^ mul a1 0x03 ^^^ a2 ^^^ a3
            ∧ (mixcolumns B)[4 * c.val + 1] = a0 ^^^ mul a1 0x02 ^^^ mul a2 0x03 ^^^ a3
            ∧ (mixcolumns B)[4 * c.val + 2] = a0 ^^^ a1 ^^^ mul a2 0x02 ^^^ mul a3 0x03
            ∧ (mixcolumns B)[4 * c.val + 3] = mul a0 0x03 ^^^ a1 ^^^ a2 ^^^ mul a3 0x02)
      ∧ ∀ (n : Fin 11) (i : Fin 16), (addroundkey B W n)[i] = B[i] ^^^ W[16 * n.val + i.val]

/-- R150, R151, R152: each inverse step, byte by byte. -/
def Obligations.InverseStepsByByte : Prop :=
  ∀ B : Block,
    (∀ i : Fin 16, (invsubbytes B)[i] = isboxRom.getD B[i].toNat 0x00)
      ∧ (∀ r c : Fin 4, (invshiftrows B)[r.val + 4 * c.val] = B[r.val + 4 * ((c.val + 4 - r.val) % 4)])
      ∧ ∀ c : Fin 4,
          let a0 := B[4 * c.val]
          let a1 := B[4 * c.val + 1]
          let a2 := B[4 * c.val + 2]
          let a3 := B[4 * c.val + 3]
          (invmixcolumns B)[4 * c.val] = mul a0 0x0E ^^^ mul a1 0x0B ^^^ mul a2 0x0D ^^^ mul a3 0x09
            ∧ (invmixcolumns B)[4 * c.val + 1] = mul a0 0x09 ^^^ mul a1 0x0E ^^^ mul a2 0x0B ^^^ mul a3 0x0D
            ∧ (invmixcolumns B)[4 * c.val + 2] = mul a0 0x0D ^^^ mul a1 0x09 ^^^ mul a2 0x0E ^^^ mul a3 0x0B
            ∧ (invmixcolumns B)[4 * c.val + 3] = mul a0 0x0B ^^^ mul a1 0x0D ^^^ mul a2 0x09 ^^^ mul a3 0x0E

/-- R156: each step and its inverse undo each other, and the two inverse byte steps commute. -/
def Obligations.StepsAreUndone : Prop :=
  ∀ (B : Block) (W : Schedule) (n : Fin 11),
    invsubbytes (subbytes B) = B ∧ subbytes (invsubbytes B) = B
      ∧ invshiftrows (shiftrows B) = B ∧ shiftrows (invshiftrows B) = B
      ∧ invmixcolumns (mixcolumns B) = B ∧ mixcolumns (invmixcolumns B) = B
      ∧ addroundkey (addroundkey B W n) W n = B
      ∧ invsubbytes (invshiftrows B) = invshiftrows (invsubbytes B)

/-- R148: the steps are bijections; the first two commute; three are linear over `^` and `subbytes` is not; a block
with equal bytes in each column is a fixed point of the column mix. -/
def Obligations.StepLaws : Prop :=
  Function.Bijective subbytes ∧ Function.Bijective shiftrows ∧ Function.Bijective mixcolumns
    ∧ (∀ (W : Schedule) (n : Fin 11), Function.Bijective fun B => addroundkey B W n)
    ∧ (∀ B : Block, shiftrows (subbytes B) = subbytes (shiftrows B))
    ∧ (∀ A B : Block, shiftrows (xorBlock A B) = xorBlock (shiftrows A) (shiftrows B))
    ∧ (∀ A B : Block, mixcolumns (xorBlock A B) = xorBlock (mixcolumns A) (mixcolumns B))
    ∧ (∀ (A B : Block) (W : Schedule) (n : Fin 11),
        addroundkey (xorBlock A B) W n = xorBlock A (addroundkey B W n))
    ∧ (∃ A B : Block, subbytes (xorBlock A B) ≠ xorBlock (subbytes A) (subbytes B))
    ∧ ∀ B : Block, (∀ r r' c : Fin 4, matrixByte B r c = matrixByte B r' c) → mixcolumns B = B

/-! ## Block transform -/

/-- R162, R163: `ENCBLK` and `DECBLK` with a schedule complete with the transform of `S`; without one they only set
`ERR`. -/
def Obligations.BlockCommands : Prop :=
  ScheduleCommand .encblk 0x60 forward ∧ ScheduleCommand .decblk 0x61 inverse

/-- R164: for every schedule, whether or not it comes from a key, the two transforms undo each other, so `forward` is a
permutation of the blocks. -/
def Obligations.BlockRoundTrip : Prop :=
  ∀ W : Schedule,
    (∀ X : Block, inverse (forward X W) W = X ∧ forward (inverse X W) W = X)
      ∧ Function.Bijective fun X => forward X W

/-- R165: with a schedule, `ENCBLK` has the effect of the forty step commands of the rule, run one after another, and
`DECBLK` that of the forty inverse ones. -/
def Obligations.BlockCommandIsStepSequence : Prop :=
  ∀ (s : State) (rest : List HostEvent), s.sv = true →
    (∃ t, Sys2Proof.core.run 40 { s with pending := issued forwardSequence ++ rest } = .next t
      ∧ exec .encblk { s with pending := rest } = .next t)
      ∧ ∃ t, Sys2Proof.core.run 40 { s with pending := issued inverseSequence ++ rest } = .next t
          ∧ exec .decblk { s with pending := rest } = .next t

/-! ## Padding -/

/-- R170, R172: `PAD` completes in every state with `DIN` followed by `n` bytes of value `n`, `n = 16 - DINLEN mod 16`,
in `DOUT`. -/
def Obligations.PadCommand : Prop :=
  (∀ s : State,
      exec .pad s = .next { s with
        dout := s.din ++ List.replicate (16 - s.din.length % 16) (BitVec.ofNat 8 (16 - s.din.length % 16))
        err := .ok }
        ∧ ∀ t, exec .pad s = .next t → t.doutlen = 16 * (s.dinlen / 16 + 1))
    ∧ NoOperandWord .pad 0x70

/-- R171, R173: `UNPAD` on a padded buffer completes with the bytes before the padding; on a bad length or bad padding
it empties `DOUT` and sets `ERR`. The three cases exclude each other. -/
def Obligations.UnpadCommand : Prop :=
  (∀ s : State, s.dinlen ≠ 0 → s.dinlen % 16 = 0 → goodPadding s.din →
      exec .unpad s = .next { s with dout := s.din.take (s.dinlen - (s.din.getLastD 0).toNat), err := .ok })
    ∧ (∀ s : State, s.dinlen = 0 ∨ s.dinlen % 16 ≠ 0 →
        exec .unpad s = .next { s with dout := [], err := .invalidCiphertextLength })
    ∧ (∀ s : State, s.dinlen ≠ 0 → s.dinlen % 16 = 0 → ¬ goodPadding s.din →
        exec .unpad s = .next { s with dout := [], err := .invalidPadding })
    ∧ NoOperandWord .unpad 0x71

/-- R174, every law of the rule. -/
def Obligations.PaddingLaws : Prop :=
  (∀ D : List Byte,
      (pad D).length % 16 = 0 ∧ D.length < (pad D).length ∧ (pad D).length = padlen D.length
        ∧ 1 ≤ (pad D).length - D.length ∧ (pad D).length - D.length ≤ 16 ∧ unpad (pad D) = .ok D)
    ∧ (∀ P D : List Byte, unpad P = .ok D → pad D = P)
    ∧ ∀ P : List Byte, (∃ D, unpad P = .ok D) ↔
        P.length ≠ 0 ∧ P.length % 16 = 0
          ∧ ∃ n : Nat, 1 ≤ n ∧ n ≤ 16 ∧ ∃ Q, P = Q ++ List.replicate n (BitVec.ofNat 8 n)

/-! ## CBC -/

/-- R182: `CBCENC` with a key of sixteen bytes completes, its loop over the registers having the net effect of
`cbc_encrypt` with the draw as IV, and the discard; with any other key length it empties `DOUT`, discards, takes no
draw and sets `ERR`. The draw is whatever the RNG answers (log entry 3). -/
def Obligations.CbcencCommand : Prop :=
  (∀ (K : Block) (s : State), s.kbuf = K.toList →
      exec .cbcenc s = .next { s with
        dout := cbcEncrypt K s.din s.nextDraw
        rk := Vector.replicate 176 0x00
        sv := false
        sReg := Vector.replicate 16 0x00
        err := .ok
        rng := s.rng.tail
        draws := s.draws + 1 })
    ∧ (∀ s : State, s.klen ≠ 16 →
        exec .cbcenc s = .next { s with
          dout := []
          rk := Vector.replicate 176 0x00
          sv := false
          sReg := Vector.replicate 16 0x00
          err := .invalidKeyLength })
    ∧ NoOperandWord .cbcenc 0x80

/-- R183: `CBCDEC` has the net effect of `cbc_decrypt` and the discard. It completes when the key has sixteen bytes,
the ciphertext a legal length, and the recovered blocks valid padding; otherwise it empties `DOUT`, discards and sets
`ERR`, the key checked before the length (log entry 11: the spec's own choice D13). -/
def Obligations.CbcdecCommand : Prop :=
  (∀ (K : Block) (s : State) (D : List Byte), s.kbuf = K.toList → cbcDecrypt K s.din = .ok D →
      exec .cbcdec s = .next { s with
        dout := D
        rk := Vector.replicate 176 0x00
        sv := false
        sReg := Vector.replicate 16 0x00
        err := .ok })
    ∧ (∀ (K : Block) (s : State), s.kbuf = K.toList → 32 ≤ s.dinlen → s.dinlen % 16 = 0 →
        goodPadding (recovered K s.din) → ∃ D, cbcDecrypt K s.din = .ok D)
    ∧ (∀ (K : Block) (s : State) (e : ErrorCode), s.kbuf = K.toList → cbcDecrypt K s.din = .error e →
        exec .cbcdec s = .next { s with
          dout := []
          rk := Vector.replicate 176 0x00
          sv := false
          sReg := Vector.replicate 16 0x00
          err := e })
    ∧ (∀ (K : Block) (C : List Byte) (e : ErrorCode), cbcDecrypt K C = .error e →
        e = if C.length < 32 ∨ C.length % 16 ≠ 0 then .invalidCiphertextLength else .invalidPadding)
    ∧ (∀ s : State, s.klen ≠ 16 →
        exec .cbcdec s = .next { s with
          dout := []
          rk := Vector.replicate 176 0x00
          sv := false
          sReg := Vector.replicate 16 0x00
          err := .invalidKeyLength })
    ∧ NoOperandWord .cbcdec 0x81

/-- R180: the ciphertext is one block longer than the padded plaintext, it begins with the IV, and each later block is the forward transform of a padded plaintext block
exclusive-or the ciphertext block before it. -/
def Obligations.CbcEncryptChain : Prop :=
  ∀ (K : Block) (P : List Byte) (IV : Block),
    (cbcEncrypt K P IV).length = 16 * ((pad P).length / 16 + 1)
      ∧ blockAt (cbcEncrypt K P IV) 0 = IV
      ∧ ∀ i, i < (pad P).length / 16 →
          blockAt (cbcEncrypt K P IV) (i + 1)
            = forward (xorBlock (blockAt (pad P) i) (blockAt (cbcEncrypt K P IV) i)) (expand K)

/-- R187: recovered block `i` is the inverse transform of ciphertext block `i` exclusive-or ciphertext block `i - 1`,
so a change of one ciphertext block reaches two recovered blocks at most. -/
def Obligations.CbcDecryptIsLocal : Prop :=
  (∀ (K : Block) (C : List Byte) (i : Nat), C.length % 16 = 0 → 1 ≤ i → i < C.length / 16 →
      blockAt (recovered K C) (i - 1)
        = xorBlock (inverse (blockAt C i) (expand K)) (blockAt C (i - 1)))
    ∧ ∀ (K : Block) (C C' : List Byte) (k i : Nat), C.length = C'.length → C.length % 16 = 0 →
        (∀ j, j ≠ k → blockAt C j = blockAt C' j) → 1 ≤ i → i < C.length / 16 → i ≠ k → i ≠ k + 1 →
          blockAt (recovered K C) (i - 1) = blockAt (recovered K C') (i - 1)

/-- R185: the length laws. The engine's own line is for a state that keeps R38. -/
def Obligations.CbcLengths : Prop :=
  (∀ (K : Block) (P : List Byte) (IV : Block),
      (cbcEncrypt K P IV).length = 16 + padlen P.length
        ∧ (cbcEncrypt K P IV).length = 16 * (P.length / 16 + 2)
        ∧ (cbcEncrypt K P IV).length % 16 = 0 ∧ 32 ≤ (cbcEncrypt K P IV).length
        ∧ (cbcEncrypt K P IV).take 16 = IV.toList)
    ∧ (∀ (K : Block) (C D : List Byte), cbcDecrypt K C = .ok D →
        C.length - 32 ≤ D.length ∧ D.length ≤ C.length - 17)
    ∧ (∀ (K : Block) (C : List Byte), C.length < 32 ∨ C.length % 16 ≠ 0 →
        cbcDecrypt K C = .error .invalidCiphertextLength)
    ∧ ∀ s t : State, s.klen = 16 → Safety.kept s → exec .cbcenc s = .next t →
        t.doutlen = 16 * (s.dinlen / 16 + 2) ∧ ∀ c, t.cap = some c → t.doutlen ≤ c + 32

/-- R186: decryption undoes encryption, as functions, and as a program on the engine whatever the RNG answers, provided
the ciphertext fits `DIN`. -/
def Obligations.CbcRoundTrip : Prop :=
  (∀ (K : Block) (P : List Byte) (IV : Block), cbcDecrypt K (cbcEncrypt K P IV) = .ok P)
    ∧ ∀ (K : Block) (P : List Byte) (s : State),
        (∀ c, s.cap = some c → 16 * (P.length / 16 + 2) ≤ c) →
          ∃ (t : State) (C : List Byte) (u : State),
            Sys2Proof.core.run 4 { s with
                pending := [.loadKey K.toList, .loadData P, .writeCmd 0x80000000, .readAll 0x14] } = .next t
              ∧ t.err = .ok ∧ t.readback = C.map (·.toNat)
              ∧ Sys2Proof.core.run 2 { t with pending := [.loadData C, .writeCmd 0x81000000] } = .next u
              ∧ u.err = .ok ∧ u.dout = P

/-- R184: on every way out of the two CBC commands the working registers are discarded, and the key and the input are
not touched. -/
def Obligations.DiscardOnEveryWayOut : Prop :=
  ∀ (i : Instr) (s : State), i = .cbcenc ∨ i = .cbcdec →
    ∃ t, exec i s = .next t ∧ (∀ j : Fin 176, t.rk[j] = 0x00) ∧ t.sv = false ∧ (∀ j : Fin 16, t.sReg[j] = 0x00)
      ∧ t.kbuf = s.kbuf ∧ t.din = s.din

/-! ## The system command -/

/-- R195: `CLR` completes in every state with every register and buffer at its reset value, and changes nothing in the
reset state. -/
def Obligations.ClrCommand : Prop :=
  (∀ s : State, exec .clr s = .next { s with
      kbuf := []
      rk := Vector.replicate 176 0x00
      sv := false
      sReg := Vector.replicate 16 0x00
      din := []
      dout := []
      res := 0x00
      err := .ok })
    ∧ exec .clr State.reset = .next State.reset
    ∧ NoOperandWord .clr 0xF0

/-! ## Whole-machine rules -/

/-- R202: every command ends with exactly the error of the rule's table. The rule makes `IllegalCommand` a property of the
word; that the terms `rcon` outside 1 to 10 and `addrk` above 10, which no word decodes to, end with it is the model's
reading (log entry 13, DEDUCED). -/
def Obligations.ErrorTable : Prop :=
  ∀ (i : Instr) (s : State), ∃ t, exec i s = .next t ∧ ErrorOf i s t.err

/-- R205, with the effects of R201 in full: a failing `UNPAD` empties the output, a failing `CBCENC` or `CBCDEC` empties it
and discards, any other failing command changes `ERR` only; so none changes `KBUF`, `KLEN`, `DIN`, `DINLEN` or `RES`. What
the failing terms are that no word decodes to is log entry 13 (DEDUCED). -/
def Obligations.FailuresArePrecise : Prop :=
  ∀ (i : Instr) (s t : State), exec i s = .next t → t.err ≠ .ok →
    t.kbuf = s.kbuf ∧ t.din = s.din ∧ t.res = s.res
      ∧ (i ≠ .unpad → i ≠ .cbcenc → i ≠ .cbcdec → t = { s with err := t.err })
      ∧ (i = .unpad → t = { s with dout := [], err := t.err })
      ∧ (i = .cbcenc ∨ i = .cbcdec → t = { s with
          dout := []
          rk := Vector.replicate 176 0x00
          sv := false
          sReg := Vector.replicate 16 0x00
          err := t.err })

/-- The column "engine writes" of R60, and the writers of `RES` (R27), `S` (R23), `SV` (R22) and of the draw (R182):
every byte of a space a command does not write reads as before, and what is not the engine's stays. -/
def Obligations.OnlyListedWriters : Prop :=
  ∀ (i : Instr) (s t : State), exec i s = .next t →
    (∀ (sp : Space) (addr n : Nat), writesSpace i sp = false → memRead t sp addr n = memRead s sp addr n)
      ∧ (writesRes i = false → t.res = s.res)
      ∧ (writesS i = false → t.sReg = s.sReg)
      ∧ (writesSv i = false → t.sv = s.sv)
      ∧ (i ≠ .cbcenc → t.rng = s.rng ∧ t.draws = s.draws)
      ∧ t.cap = s.cap ∧ t.pending = s.pending ∧ t.readback = s.readback

/-- R31: no command reads `ERR`, and no command but `ADDRK`, `ENCBLK` and `DECBLK` reads `SV`. -/
def Obligations.FlagsNotRead : Prop :=
  (∀ (i : Instr) (s : State) (e : ErrorCode), exec i { s with err := e } = exec i s)
    ∧ ∀ (i : Instr) (s t u : State) (b : Bool), readsSv i = false →
        exec i s = .next t → exec i { s with sv := b } = .next u → { u with sv := t.sv } = t

/-! ## Invariants -/

/-- The invariant of R38 holds of the state after reset. -/
def Obligations.KeptAtReset : Prop := Safety.kept State.reset

/-- R38, with the schedule invariant of R22: from every state that keeps it, a step, whatever its event, gives a state
that keeps it. -/
def Obligations.KeptByEveryStep : Prop :=
  ∀ s t : State, Safety.kept s → step s = .next t → Safety.kept t
end

