-- ==== Sys2Proof/Laws/Decode.lean ====
section
/-! SUPPORT. The fields of a word of format `C32` (R90), for the encoder's words and for any word. -/

namespace Sys2Proof

/-- The bits of a word put together from its four fields. -/
theorem getLsbD_word (op rsv a b : Byte) (i : Nat) :
    (op ++ rsv ++ a ++ b : CmdWord).getLsbD i =
      if i < 8 then b.getLsbD i
      else if i - 8 < 8 then a.getLsbD (i - 8)
      else if i - 16 < 8 then rsv.getLsbD (i - 16)
      else op.getLsbD (i - 24) := by
  have h1 := BitVec.getLsbD_append (x := op ++ rsv ++ a) (y := b) (i := i)
  have h2 := BitVec.getLsbD_append (x := op ++ rsv) (y := a) (i := i - 8)
  have h3 := BitVec.getLsbD_append (x := op) (y := rsv) (i := i - 8 - 8)
  rw [h2, h3] at h1
  simpa [Nat.sub_sub] using h1

@[simp] theorem opField_word (op rsv a b : Byte) : opField (op ++ rsv ++ a ++ b) = op := by
  apply BitVec.eq_of_getLsbD_eq
  intro i h
  have h1 : ¬ 24 + i < 8 := by omega
  have h2 : ¬ 24 + i - 8 < 8 := by omega
  have h3 : ¬ 24 + i - 16 < 8 := by omega
  simp [opField, getLsbD_word, h, h1, h2, h3]

@[simp] theorem rsvField_word (op rsv a b : Byte) : rsvField (op ++ rsv ++ a ++ b) = rsv := by
  apply BitVec.eq_of_getLsbD_eq
  intro i h
  have h1 : ¬ 16 + i < 8 := by omega
  have h2 : ¬ 16 + i - 8 < 8 := by omega
  simp [rsvField, getLsbD_word, h, h1, h2]

@[simp] theorem aField_word (op rsv a b : Byte) : aField (op ++ rsv ++ a ++ b) = a := by
  apply BitVec.eq_of_getLsbD_eq
  intro i h
  simp [aField, getLsbD_word, h]

@[simp] theorem bField_word (op rsv a b : Byte) : bField (op ++ rsv ++ a ++ b) = b := by
  apply BitVec.eq_of_getLsbD_eq
  intro i h
  simp [bField, getLsbD_word, h]

/-- A word is its four fields. -/
theorem word_of_fields (w : CmdWord) : opField w ++ rsvField w ++ aField w ++ bField w = w := by
  apply BitVec.eq_of_getLsbD_eq
  intro i h
  rw [getLsbD_word]
  simp only [opField, rsvField, aField, bField, BitVec.getLsbD_extractLsb']
  split
  · simp [*]
  · split
    · rename_i h8 h16
      simp [h16, show 8 + (i - 8) = i by omega]
    · split
      · rename_i h8 h16 h24
        simp [h24, show 16 + (i - 16) = i by omega]
      · rename_i h8 h16 h24
        simp [show i - 24 < 8 by omega, show 24 + (i - 24) = i by omega]

end Sys2Proof
end

