-- ==== Sys2Proof/Laws/State.lean ====
section
/-! SUPPORT. One lemma a field for each update of State in Machine/Ops.lean, each true by rfl and tagged for simp, so
that no proof unfolds a record update; and the same for the three lengths. -/

namespace Sys2Proof.Machine

/-! ## setErr -/

@[simp] theorem State.setErr_kbuf (e : ErrorCode) (s : State) : (s.setErr e).kbuf = s.kbuf := rfl
@[simp] theorem State.setErr_rk (e : ErrorCode) (s : State) : (s.setErr e).rk = s.rk := rfl
@[simp] theorem State.setErr_sv (e : ErrorCode) (s : State) : (s.setErr e).sv = s.sv := rfl
@[simp] theorem State.setErr_sReg (e : ErrorCode) (s : State) : (s.setErr e).sReg = s.sReg := rfl
@[simp] theorem State.setErr_din (e : ErrorCode) (s : State) : (s.setErr e).din = s.din := rfl
@[simp] theorem State.setErr_dout (e : ErrorCode) (s : State) : (s.setErr e).dout = s.dout := rfl
@[simp] theorem State.setErr_res (e : ErrorCode) (s : State) : (s.setErr e).res = s.res := rfl
@[simp] theorem State.setErr_err (e : ErrorCode) (s : State) : (s.setErr e).err = e := rfl
@[simp] theorem State.setErr_cap (e : ErrorCode) (s : State) : (s.setErr e).cap = s.cap := rfl
@[simp] theorem State.setErr_pending (e : ErrorCode) (s : State) : (s.setErr e).pending = s.pending := rfl
@[simp] theorem State.setErr_readback (e : ErrorCode) (s : State) : (s.setErr e).readback = s.readback := rfl
@[simp] theorem State.setErr_rng (e : ErrorCode) (s : State) : (s.setErr e).rng = s.rng := rfl
@[simp] theorem State.setErr_draws (e : ErrorCode) (s : State) : (s.setErr e).draws = s.draws := rfl
@[simp] theorem State.setErr_klen (e : ErrorCode) (s : State) : (s.setErr e).klen = s.klen := rfl
@[simp] theorem State.setErr_dinlen (e : ErrorCode) (s : State) : (s.setErr e).dinlen = s.dinlen := rfl

/-! ## setRes -/

@[simp] theorem State.setRes_kbuf (v : Byte) (s : State) : (s.setRes v).kbuf = s.kbuf := rfl
@[simp] theorem State.setRes_rk (v : Byte) (s : State) : (s.setRes v).rk = s.rk := rfl
@[simp] theorem State.setRes_sv (v : Byte) (s : State) : (s.setRes v).sv = s.sv := rfl
@[simp] theorem State.setRes_sReg (v : Byte) (s : State) : (s.setRes v).sReg = s.sReg := rfl
@[simp] theorem State.setRes_din (v : Byte) (s : State) : (s.setRes v).din = s.din := rfl
@[simp] theorem State.setRes_dout (v : Byte) (s : State) : (s.setRes v).dout = s.dout := rfl
@[simp] theorem State.setRes_res (v : Byte) (s : State) : (s.setRes v).res = v := rfl
@[simp] theorem State.setRes_err (v : Byte) (s : State) : (s.setRes v).err = s.err := rfl
@[simp] theorem State.setRes_cap (v : Byte) (s : State) : (s.setRes v).cap = s.cap := rfl
@[simp] theorem State.setRes_pending (v : Byte) (s : State) : (s.setRes v).pending = s.pending := rfl
@[simp] theorem State.setRes_readback (v : Byte) (s : State) : (s.setRes v).readback = s.readback := rfl
@[simp] theorem State.setRes_rng (v : Byte) (s : State) : (s.setRes v).rng = s.rng := rfl
@[simp] theorem State.setRes_draws (v : Byte) (s : State) : (s.setRes v).draws = s.draws := rfl
@[simp] theorem State.setRes_klen (v : Byte) (s : State) : (s.setRes v).klen = s.klen := rfl
@[simp] theorem State.setRes_dinlen (v : Byte) (s : State) : (s.setRes v).dinlen = s.dinlen := rfl

/-! ## setS -/

@[simp] theorem State.setS_kbuf (B : Block) (s : State) : (s.setS B).kbuf = s.kbuf := rfl
@[simp] theorem State.setS_rk (B : Block) (s : State) : (s.setS B).rk = s.rk := rfl
@[simp] theorem State.setS_sv (B : Block) (s : State) : (s.setS B).sv = s.sv := rfl
@[simp] theorem State.setS_sReg (B : Block) (s : State) : (s.setS B).sReg = B := rfl
@[simp] theorem State.setS_din (B : Block) (s : State) : (s.setS B).din = s.din := rfl
@[simp] theorem State.setS_dout (B : Block) (s : State) : (s.setS B).dout = s.dout := rfl
@[simp] theorem State.setS_res (B : Block) (s : State) : (s.setS B).res = s.res := rfl
@[simp] theorem State.setS_err (B : Block) (s : State) : (s.setS B).err = s.err := rfl
@[simp] theorem State.setS_cap (B : Block) (s : State) : (s.setS B).cap = s.cap := rfl
@[simp] theorem State.setS_pending (B : Block) (s : State) : (s.setS B).pending = s.pending := rfl
@[simp] theorem State.setS_readback (B : Block) (s : State) : (s.setS B).readback = s.readback := rfl
@[simp] theorem State.setS_rng (B : Block) (s : State) : (s.setS B).rng = s.rng := rfl
@[simp] theorem State.setS_draws (B : Block) (s : State) : (s.setS B).draws = s.draws := rfl
@[simp] theorem State.setS_klen (B : Block) (s : State) : (s.setS B).klen = s.klen := rfl
@[simp] theorem State.setS_dinlen (B : Block) (s : State) : (s.setS B).dinlen = s.dinlen := rfl

/-! ## setKbuf -/

@[simp] theorem State.setKbuf_kbuf (K : List Byte) (s : State) : (s.setKbuf K).kbuf = K := rfl
@[simp] theorem State.setKbuf_rk (K : List Byte) (s : State) : (s.setKbuf K).rk = s.rk := rfl
@[simp] theorem State.setKbuf_sv (K : List Byte) (s : State) : (s.setKbuf K).sv = s.sv := rfl
@[simp] theorem State.setKbuf_sReg (K : List Byte) (s : State) : (s.setKbuf K).sReg = s.sReg := rfl
@[simp] theorem State.setKbuf_din (K : List Byte) (s : State) : (s.setKbuf K).din = s.din := rfl
@[simp] theorem State.setKbuf_dout (K : List Byte) (s : State) : (s.setKbuf K).dout = s.dout := rfl
@[simp] theorem State.setKbuf_res (K : List Byte) (s : State) : (s.setKbuf K).res = s.res := rfl
@[simp] theorem State.setKbuf_err (K : List Byte) (s : State) : (s.setKbuf K).err = s.err := rfl
@[simp] theorem State.setKbuf_cap (K : List Byte) (s : State) : (s.setKbuf K).cap = s.cap := rfl
@[simp] theorem State.setKbuf_pending (K : List Byte) (s : State) : (s.setKbuf K).pending = s.pending := rfl
@[simp] theorem State.setKbuf_readback (K : List Byte) (s : State) : (s.setKbuf K).readback = s.readback := rfl
@[simp] theorem State.setKbuf_rng (K : List Byte) (s : State) : (s.setKbuf K).rng = s.rng := rfl
@[simp] theorem State.setKbuf_draws (K : List Byte) (s : State) : (s.setKbuf K).draws = s.draws := rfl
@[simp] theorem State.setKbuf_klen (K : List Byte) (s : State) : (s.setKbuf K).klen = (K : List Byte).length := rfl
@[simp] theorem State.setKbuf_dinlen (K : List Byte) (s : State) : (s.setKbuf K).dinlen = s.dinlen := rfl

/-! ## setDin -/

@[simp] theorem State.setDin_kbuf (M : List Byte) (s : State) : (s.setDin M).kbuf = s.kbuf := rfl
@[simp] theorem State.setDin_rk (M : List Byte) (s : State) : (s.setDin M).rk = s.rk := rfl
@[simp] theorem State.setDin_sv (M : List Byte) (s : State) : (s.setDin M).sv = s.sv := rfl
@[simp] theorem State.setDin_sReg (M : List Byte) (s : State) : (s.setDin M).sReg = s.sReg := rfl
@[simp] theorem State.setDin_din (M : List Byte) (s : State) : (s.setDin M).din = M := rfl
@[simp] theorem State.setDin_dout (M : List Byte) (s : State) : (s.setDin M).dout = s.dout := rfl
@[simp] theorem State.setDin_res (M : List Byte) (s : State) : (s.setDin M).res = s.res := rfl
@[simp] theorem State.setDin_err (M : List Byte) (s : State) : (s.setDin M).err = s.err := rfl
@[simp] theorem State.setDin_cap (M : List Byte) (s : State) : (s.setDin M).cap = s.cap := rfl
@[simp] theorem State.setDin_pending (M : List Byte) (s : State) : (s.setDin M).pending = s.pending := rfl
@[simp] theorem State.setDin_readback (M : List Byte) (s : State) : (s.setDin M).readback = s.readback := rfl
@[simp] theorem State.setDin_rng (M : List Byte) (s : State) : (s.setDin M).rng = s.rng := rfl
@[simp] theorem State.setDin_draws (M : List Byte) (s : State) : (s.setDin M).draws = s.draws := rfl
@[simp] theorem State.setDin_klen (M : List Byte) (s : State) : (s.setDin M).klen = s.klen := rfl
@[simp] theorem State.setDin_dinlen (M : List Byte) (s : State) : (s.setDin M).dinlen = (M : List Byte).length := rfl

/-! ## setDout -/

@[simp] theorem State.setDout_kbuf (D : List Byte) (s : State) : (s.setDout D).kbuf = s.kbuf := rfl
@[simp] theorem State.setDout_rk (D : List Byte) (s : State) : (s.setDout D).rk = s.rk := rfl
@[simp] theorem State.setDout_sv (D : List Byte) (s : State) : (s.setDout D).sv = s.sv := rfl
@[simp] theorem State.setDout_sReg (D : List Byte) (s : State) : (s.setDout D).sReg = s.sReg := rfl
@[simp] theorem State.setDout_din (D : List Byte) (s : State) : (s.setDout D).din = s.din := rfl
@[simp] theorem State.setDout_dout (D : List Byte) (s : State) : (s.setDout D).dout = D := rfl
@[simp] theorem State.setDout_res (D : List Byte) (s : State) : (s.setDout D).res = s.res := rfl
@[simp] theorem State.setDout_err (D : List Byte) (s : State) : (s.setDout D).err = s.err := rfl
@[simp] theorem State.setDout_cap (D : List Byte) (s : State) : (s.setDout D).cap = s.cap := rfl
@[simp] theorem State.setDout_pending (D : List Byte) (s : State) : (s.setDout D).pending = s.pending := rfl
@[simp] theorem State.setDout_readback (D : List Byte) (s : State) : (s.setDout D).readback = s.readback := rfl
@[simp] theorem State.setDout_rng (D : List Byte) (s : State) : (s.setDout D).rng = s.rng := rfl
@[simp] theorem State.setDout_draws (D : List Byte) (s : State) : (s.setDout D).draws = s.draws := rfl
@[simp] theorem State.setDout_klen (D : List Byte) (s : State) : (s.setDout D).klen = s.klen := rfl
@[simp] theorem State.setDout_dinlen (D : List Byte) (s : State) : (s.setDout D).dinlen = s.dinlen := rfl

/-! ## setSchedule -/

@[simp] theorem State.setSchedule_kbuf (W : Schedule) (s : State) : (s.setSchedule W).kbuf = s.kbuf := rfl
@[simp] theorem State.setSchedule_rk (W : Schedule) (s : State) : (s.setSchedule W).rk = W := rfl
@[simp] theorem State.setSchedule_sv (W : Schedule) (s : State) : (s.setSchedule W).sv = true := rfl
@[simp] theorem State.setSchedule_sReg (W : Schedule) (s : State) : (s.setSchedule W).sReg = s.sReg := rfl
@[simp] theorem State.setSchedule_din (W : Schedule) (s : State) : (s.setSchedule W).din = s.din := rfl
@[simp] theorem State.setSchedule_dout (W : Schedule) (s : State) : (s.setSchedule W).dout = s.dout := rfl
@[simp] theorem State.setSchedule_res (W : Schedule) (s : State) : (s.setSchedule W).res = s.res := rfl
@[simp] theorem State.setSchedule_err (W : Schedule) (s : State) : (s.setSchedule W).err = s.err := rfl
@[simp] theorem State.setSchedule_cap (W : Schedule) (s : State) : (s.setSchedule W).cap = s.cap := rfl
@[simp] theorem State.setSchedule_pending (W : Schedule) (s : State) : (s.setSchedule W).pending = s.pending := rfl
@[simp] theorem State.setSchedule_readback (W : Schedule) (s : State) : (s.setSchedule W).readback = s.readback := rfl
@[simp] theorem State.setSchedule_rng (W : Schedule) (s : State) : (s.setSchedule W).rng = s.rng := rfl
@[simp] theorem State.setSchedule_draws (W : Schedule) (s : State) : (s.setSchedule W).draws = s.draws := rfl
@[simp] theorem State.setSchedule_klen (W : Schedule) (s : State) : (s.setSchedule W).klen = s.klen := rfl
@[simp] theorem State.setSchedule_dinlen (W : Schedule) (s : State) : (s.setSchedule W).dinlen = s.dinlen := rfl

/-! ## dropSchedule -/

@[simp] theorem State.dropSchedule_kbuf (s : State) : (s.dropSchedule).kbuf = s.kbuf := rfl
@[simp] theorem State.dropSchedule_rk (s : State) : (s.dropSchedule).rk = zeroSchedule := rfl
@[simp] theorem State.dropSchedule_sv (s : State) : (s.dropSchedule).sv = false := rfl
@[simp] theorem State.dropSchedule_sReg (s : State) : (s.dropSchedule).sReg = s.sReg := rfl
@[simp] theorem State.dropSchedule_din (s : State) : (s.dropSchedule).din = s.din := rfl
@[simp] theorem State.dropSchedule_dout (s : State) : (s.dropSchedule).dout = s.dout := rfl
@[simp] theorem State.dropSchedule_res (s : State) : (s.dropSchedule).res = s.res := rfl
@[simp] theorem State.dropSchedule_err (s : State) : (s.dropSchedule).err = s.err := rfl
@[simp] theorem State.dropSchedule_cap (s : State) : (s.dropSchedule).cap = s.cap := rfl
@[simp] theorem State.dropSchedule_pending (s : State) : (s.dropSchedule).pending = s.pending := rfl
@[simp] theorem State.dropSchedule_readback (s : State) : (s.dropSchedule).readback = s.readback := rfl
@[simp] theorem State.dropSchedule_rng (s : State) : (s.dropSchedule).rng = s.rng := rfl
@[simp] theorem State.dropSchedule_draws (s : State) : (s.dropSchedule).draws = s.draws := rfl
@[simp] theorem State.dropSchedule_klen (s : State) : (s.dropSchedule).klen = s.klen := rfl
@[simp] theorem State.dropSchedule_dinlen (s : State) : (s.dropSchedule).dinlen = s.dinlen := rfl

/-! ## setPending -/

@[simp] theorem State.setPending_kbuf (es : List HostEvent) (s : State) : (s.setPending es).kbuf = s.kbuf := rfl
@[simp] theorem State.setPending_rk (es : List HostEvent) (s : State) : (s.setPending es).rk = s.rk := rfl
@[simp] theorem State.setPending_sv (es : List HostEvent) (s : State) : (s.setPending es).sv = s.sv := rfl
@[simp] theorem State.setPending_sReg (es : List HostEvent) (s : State) : (s.setPending es).sReg = s.sReg := rfl
@[simp] theorem State.setPending_din (es : List HostEvent) (s : State) : (s.setPending es).din = s.din := rfl
@[simp] theorem State.setPending_dout (es : List HostEvent) (s : State) : (s.setPending es).dout = s.dout := rfl
@[simp] theorem State.setPending_res (es : List HostEvent) (s : State) : (s.setPending es).res = s.res := rfl
@[simp] theorem State.setPending_err (es : List HostEvent) (s : State) : (s.setPending es).err = s.err := rfl
@[simp] theorem State.setPending_cap (es : List HostEvent) (s : State) : (s.setPending es).cap = s.cap := rfl
@[simp] theorem State.setPending_pending (es : List HostEvent) (s : State) : (s.setPending es).pending = es := rfl
@[simp] theorem State.setPending_readback (es : List HostEvent) (s : State) : (s.setPending es).readback = s.readback := rfl
@[simp] theorem State.setPending_rng (es : List HostEvent) (s : State) : (s.setPending es).rng = s.rng := rfl
@[simp] theorem State.setPending_draws (es : List HostEvent) (s : State) : (s.setPending es).draws = s.draws := rfl
@[simp] theorem State.setPending_klen (es : List HostEvent) (s : State) : (s.setPending es).klen = s.klen := rfl
@[simp] theorem State.setPending_dinlen (es : List HostEvent) (s : State) : (s.setPending es).dinlen = s.dinlen := rfl

/-! ## setReadback -/

@[simp] theorem State.setReadback_kbuf (vs : List Nat) (s : State) : (s.setReadback vs).kbuf = s.kbuf := rfl
@[simp] theorem State.setReadback_rk (vs : List Nat) (s : State) : (s.setReadback vs).rk = s.rk := rfl
@[simp] theorem State.setReadback_sv (vs : List Nat) (s : State) : (s.setReadback vs).sv = s.sv := rfl
@[simp] theorem State.setReadback_sReg (vs : List Nat) (s : State) : (s.setReadback vs).sReg = s.sReg := rfl
@[simp] theorem State.setReadback_din (vs : List Nat) (s : State) : (s.setReadback vs).din = s.din := rfl
@[simp] theorem State.setReadback_dout (vs : List Nat) (s : State) : (s.setReadback vs).dout = s.dout := rfl
@[simp] theorem State.setReadback_res (vs : List Nat) (s : State) : (s.setReadback vs).res = s.res := rfl
@[simp] theorem State.setReadback_err (vs : List Nat) (s : State) : (s.setReadback vs).err = s.err := rfl
@[simp] theorem State.setReadback_cap (vs : List Nat) (s : State) : (s.setReadback vs).cap = s.cap := rfl
@[simp] theorem State.setReadback_pending (vs : List Nat) (s : State) : (s.setReadback vs).pending = s.pending := rfl
@[simp] theorem State.setReadback_readback (vs : List Nat) (s : State) : (s.setReadback vs).readback = vs := rfl
@[simp] theorem State.setReadback_rng (vs : List Nat) (s : State) : (s.setReadback vs).rng = s.rng := rfl
@[simp] theorem State.setReadback_draws (vs : List Nat) (s : State) : (s.setReadback vs).draws = s.draws := rfl
@[simp] theorem State.setReadback_klen (vs : List Nat) (s : State) : (s.setReadback vs).klen = s.klen := rfl
@[simp] theorem State.setReadback_dinlen (vs : List Nat) (s : State) : (s.setReadback vs).dinlen = s.dinlen := rfl

/-! ## appendDout -/

@[simp] theorem State.appendDout_kbuf (B : Block) (s : State) : (s.appendDout B).kbuf = s.kbuf := rfl
@[simp] theorem State.appendDout_rk (B : Block) (s : State) : (s.appendDout B).rk = s.rk := rfl
@[simp] theorem State.appendDout_sv (B : Block) (s : State) : (s.appendDout B).sv = s.sv := rfl
@[simp] theorem State.appendDout_sReg (B : Block) (s : State) : (s.appendDout B).sReg = s.sReg := rfl
@[simp] theorem State.appendDout_din (B : Block) (s : State) : (s.appendDout B).din = s.din := rfl
@[simp] theorem State.appendDout_dout (B : Block) (s : State) : (s.appendDout B).dout = s.dout ++ B.toList := rfl
@[simp] theorem State.appendDout_res (B : Block) (s : State) : (s.appendDout B).res = s.res := rfl
@[simp] theorem State.appendDout_err (B : Block) (s : State) : (s.appendDout B).err = s.err := rfl
@[simp] theorem State.appendDout_cap (B : Block) (s : State) : (s.appendDout B).cap = s.cap := rfl
@[simp] theorem State.appendDout_pending (B : Block) (s : State) : (s.appendDout B).pending = s.pending := rfl
@[simp] theorem State.appendDout_readback (B : Block) (s : State) : (s.appendDout B).readback = s.readback := rfl
@[simp] theorem State.appendDout_rng (B : Block) (s : State) : (s.appendDout B).rng = s.rng := rfl
@[simp] theorem State.appendDout_draws (B : Block) (s : State) : (s.appendDout B).draws = s.draws := rfl
@[simp] theorem State.appendDout_klen (B : Block) (s : State) : (s.appendDout B).klen = s.klen := rfl
@[simp] theorem State.appendDout_dinlen (B : Block) (s : State) : (s.appendDout B).dinlen = s.dinlen := rfl

/-! ## takeDraw -/

@[simp] theorem State.takeDraw_kbuf (s : State) : (s.takeDraw).kbuf = s.kbuf := rfl
@[simp] theorem State.takeDraw_rk (s : State) : (s.takeDraw).rk = s.rk := rfl
@[simp] theorem State.takeDraw_sv (s : State) : (s.takeDraw).sv = s.sv := rfl
@[simp] theorem State.takeDraw_sReg (s : State) : (s.takeDraw).sReg = s.sReg := rfl
@[simp] theorem State.takeDraw_din (s : State) : (s.takeDraw).din = s.din := rfl
@[simp] theorem State.takeDraw_dout (s : State) : (s.takeDraw).dout = s.dout := rfl
@[simp] theorem State.takeDraw_res (s : State) : (s.takeDraw).res = s.res := rfl
@[simp] theorem State.takeDraw_err (s : State) : (s.takeDraw).err = s.err := rfl
@[simp] theorem State.takeDraw_cap (s : State) : (s.takeDraw).cap = s.cap := rfl
@[simp] theorem State.takeDraw_pending (s : State) : (s.takeDraw).pending = s.pending := rfl
@[simp] theorem State.takeDraw_readback (s : State) : (s.takeDraw).readback = s.readback := rfl
@[simp] theorem State.takeDraw_rng (s : State) : (s.takeDraw).rng = s.rng.tail := rfl
@[simp] theorem State.takeDraw_draws (s : State) : (s.takeDraw).draws = s.draws + 1 := rfl
@[simp] theorem State.takeDraw_klen (s : State) : (s.takeDraw).klen = s.klen := rfl
@[simp] theorem State.takeDraw_dinlen (s : State) : (s.takeDraw).dinlen = s.dinlen := rfl

/-! ## discard -/

@[simp] theorem State.discard_kbuf (s : State) : (s.discard).kbuf = s.kbuf := rfl
@[simp] theorem State.discard_rk (s : State) : (s.discard).rk = zeroSchedule := rfl
@[simp] theorem State.discard_sv (s : State) : (s.discard).sv = false := rfl
@[simp] theorem State.discard_sReg (s : State) : (s.discard).sReg = zeroBlock := rfl
@[simp] theorem State.discard_din (s : State) : (s.discard).din = s.din := rfl
@[simp] theorem State.discard_dout (s : State) : (s.discard).dout = s.dout := rfl
@[simp] theorem State.discard_res (s : State) : (s.discard).res = s.res := rfl
@[simp] theorem State.discard_err (s : State) : (s.discard).err = s.err := rfl
@[simp] theorem State.discard_cap (s : State) : (s.discard).cap = s.cap := rfl
@[simp] theorem State.discard_pending (s : State) : (s.discard).pending = s.pending := rfl
@[simp] theorem State.discard_readback (s : State) : (s.discard).readback = s.readback := rfl
@[simp] theorem State.discard_rng (s : State) : (s.discard).rng = s.rng := rfl
@[simp] theorem State.discard_draws (s : State) : (s.discard).draws = s.draws := rfl
@[simp] theorem State.discard_klen (s : State) : (s.discard).klen = s.klen := rfl
@[simp] theorem State.discard_dinlen (s : State) : (s.discard).dinlen = s.dinlen := rfl

/-! ## clearEngine -/

@[simp] theorem State.clearEngine_kbuf (s : State) : (s.clearEngine).kbuf = [] := rfl
@[simp] theorem State.clearEngine_rk (s : State) : (s.clearEngine).rk = zeroSchedule := rfl
@[simp] theorem State.clearEngine_sv (s : State) : (s.clearEngine).sv = false := rfl
@[simp] theorem State.clearEngine_sReg (s : State) : (s.clearEngine).sReg = zeroBlock := rfl
@[simp] theorem State.clearEngine_din (s : State) : (s.clearEngine).din = [] := rfl
@[simp] theorem State.clearEngine_dout (s : State) : (s.clearEngine).dout = [] := rfl
@[simp] theorem State.clearEngine_res (s : State) : (s.clearEngine).res = 0 := rfl
@[simp] theorem State.clearEngine_err (s : State) : (s.clearEngine).err = .ok := rfl
@[simp] theorem State.clearEngine_cap (s : State) : (s.clearEngine).cap = s.cap := rfl
@[simp] theorem State.clearEngine_pending (s : State) : (s.clearEngine).pending = s.pending := rfl
@[simp] theorem State.clearEngine_readback (s : State) : (s.clearEngine).readback = s.readback := rfl
@[simp] theorem State.clearEngine_rng (s : State) : (s.clearEngine).rng = s.rng := rfl
@[simp] theorem State.clearEngine_draws (s : State) : (s.clearEngine).draws = s.draws := rfl
@[simp] theorem State.clearEngine_klen (s : State) : (s.clearEngine).klen = 0 := rfl
@[simp] theorem State.clearEngine_dinlen (s : State) : (s.clearEngine).dinlen = 0 := rfl

/-! ## Updates that meet -/

@[simp] theorem State.setErr_setErr (e e' : ErrorCode) (s : State) : (s.setErr e).setErr e' = s.setErr e' := rfl
@[simp] theorem State.setS_setS (B B' : Block) (s : State) : (s.setS B).setS B' = s.setS B' := rfl
@[simp] theorem State.setDout_setDout (D D' : List Byte) (s : State) :
    (s.setDout D).setDout D' = s.setDout D' := rfl
@[simp] theorem State.setPending_self (s : State) : s.setPending s.pending = s := rfl
@[simp] theorem State.setPending_setPending (es es' : List HostEvent) (s : State) :
    (s.setPending es).setPending es' = s.setPending es' := rfl

end Sys2Proof.Machine
end

