-- ==== Sys2Proof/Laws/Memory.lean ====
section
/-! SUPPORT. The canonical form of the buffers (R38, `Memory.wf`): every write of a register or buffer keeps it, and
the state after reset has it. A write of a buffer keeps it exactly when the new sequence is within the capacity. -/

namespace Sys2Proof.Machine

/-- What `Memory.wf` says, clause by clause. -/
theorem Memory.wf_iff (s : State) :
    Memory.wf s = true ↔
      s.kbuf.length ≤ 32 ∧ fits s.din.length s.cap = true
        ∧ fits s.dout.length (s.cap.map (· + 32)) = true := by
  simp only [Memory.wf, Bool.and_eq_true, decide_eq_true_eq, and_assoc]
  rfl

/-- `fits` against a bounded capacity. -/
theorem fits_iff (n : Nat) (cap : Option Nat) : fits n cap = true ↔ ∀ c, cap = some c → n ≤ c := by
  cases cap <;> simp [fits]

theorem Memory.wf_reset : Memory.wf State.reset = true := by decide

/-- The writes of single registers, the discard, the draw and the events leave the buffers alone. -/
@[simp] theorem Memory.wf_setErr (e : ErrorCode) (s : State) : Memory.wf (s.setErr e) = Memory.wf s := rfl
@[simp] theorem Memory.wf_setRes (v : Byte) (s : State) : Memory.wf (s.setRes v) = Memory.wf s := rfl
@[simp] theorem Memory.wf_setS (B : Block) (s : State) : Memory.wf (s.setS B) = Memory.wf s := rfl
@[simp] theorem Memory.wf_setSchedule (W : Schedule) (s : State) :
    Memory.wf (s.setSchedule W) = Memory.wf s := rfl
@[simp] theorem Memory.wf_dropSchedule (s : State) : Memory.wf s.dropSchedule = Memory.wf s := rfl
@[simp] theorem Memory.wf_setPending (es : List HostEvent) (s : State) :
    Memory.wf (s.setPending es) = Memory.wf s := rfl
@[simp] theorem Memory.wf_setReadback (vs : List Nat) (s : State) :
    Memory.wf (s.setReadback vs) = Memory.wf s := rfl
@[simp] theorem Memory.wf_takeDraw (s : State) : Memory.wf s.takeDraw = Memory.wf s := rfl
@[simp] theorem Memory.wf_discard (s : State) : Memory.wf s.discard = Memory.wf s := rfl

/-- Clearing empties the buffers. -/
@[simp] theorem Memory.wf_clearEngine (s : State) : Memory.wf s.clearEngine = true := by
  rw [Memory.wf_iff]
  cases h : s.cap <;> simp [fits, h]

theorem Memory.wf_setKbuf {s : State} (h : Memory.wf s = true) {K : List Byte} (hK : K.length ≤ 32) :
    Memory.wf (s.setKbuf K) = true := by
  rw [Memory.wf_iff] at h ⊢
  exact ⟨hK, h.2⟩

theorem Memory.wf_setDin {s : State} (h : Memory.wf s = true) {M : List Byte}
    (hM : fits M.length s.cap = true) : Memory.wf (s.setDin M) = true := by
  rw [Memory.wf_iff] at h ⊢
  exact ⟨h.1, hM, h.2.2⟩

theorem Memory.wf_setDout {s : State} (h : Memory.wf s = true) {D : List Byte}
    (hD : fits D.length (s.cap.map (· + 32)) = true) : Memory.wf (s.setDout D) = true := by
  rw [Memory.wf_iff] at h ⊢
  exact ⟨h.1, h.2.1, hD⟩

/-- Emptying the output is always within the capacity. -/
theorem Memory.wf_setDout_nil {s : State} (h : Memory.wf s = true) : Memory.wf (s.setDout []) = true :=
  Memory.wf_setDout h (by cases s.cap <;> simp [fits])

theorem Memory.wf_appendDout {s : State} (h : Memory.wf s = true) {B : Block}
    (hD : fits (s.dout.length + 16) (s.cap.map (· + 32)) = true) :
    Memory.wf (s.appendDout B) = true :=
  Memory.wf_setDout h (by simpa using hD)

end Sys2Proof.Machine
end

