-- ==== Sys2Proof/Laws/Ops.lean ====
section
/-! SUPPORT. What each shared operation does, said once: the two ends of a command, sequences and blocks, the reads of
the byte spaces, the operand forms. -/

namespace Sys2Proof.Machine

/-! ## The two ends of a command -/

/-- All that the success action can do (R210). -/
theorem complete_next_iff {s t : State} : complete s = .next t ↔ t = s.setErr .ok := by
  simp [complete, eq_comm]

/-- All that the fail action can do (R201). -/
theorem raise_next_iff {e : ErrorCode} {s t : State} : raise e s = .next t ↔ t = s.setErr e := by
  simp [raise, eq_comm]

/-! ## Sequences and blocks -/

theorem slice_length {B : List Byte} {i n : Nat} (h : i + n ≤ B.length) : (slice B i n).length = n := by
  simp [slice]
  omega

theorem slice_getD {B : List Byte} {i n j : Nat} (hj : j < n) : (slice B i n).getD j 0 = B.getD (i + j) 0 := by
  simp [slice, List.getD_eq_getElem?_getD, hj]

@[simp] theorem blockOfList_getElem (B : List Byte) (i : Nat) (h : i < 16) :
    (blockOfList B)[i] = B.getD i 0 := by
  simp [blockOfList]

/-- A block written out and read back. -/
@[simp] theorem blockOfList_toList (B : Block) : blockOfList B.toList = B := by
  apply Vector.ext
  intro i h
  simp [List.getD_eq_getElem?_getD, h]

/-- Sixteen bytes read as a block and written out. -/
theorem toList_blockOfList {B : List Byte} (h : B.length = 16) : (blockOfList B).toList = B := by
  apply List.ext_getElem
  · simp [h]
  · intro i h1 h2
    simp [List.getD_eq_getElem?_getD, h2]

/-- Only the first sixteen bytes count. -/
theorem blockOfList_slice (B : List Byte) : blockOfList (slice B 0 16) = blockOfList B := by
  apply Vector.ext
  intro i h
  rw [blockOfList_getElem _ _ h, blockOfList_getElem _ _ h, slice_getD h, Nat.zero_add]

@[simp] theorem xorBlock_getElem (A B : Block) (i : Nat) (h : i < 16) : (xorBlock A B)[i] = A[i] ^^^ B[i] := by
  simp [xorBlock]

/-- Exclusive-or with the same block twice. -/
@[simp] theorem xorBlock_xorBlock (A B : Block) : xorBlock (xorBlock A B) B = A := by
  apply Vector.ext
  intro i h
  simp

@[simp] theorem zeroBlock_getElem (i : Nat) (h : i < 16) : zeroBlock[i] = 0 := by
  simp [zeroBlock]

@[simp] theorem zeroSchedule_getElem (i : Nat) (h : i < 176) : zeroSchedule[i] = 0 := by
  simp [zeroSchedule]

/-! ## The byte spaces -/

theorem memReadByte_sbox (s : State) (a : Byte) : memReadByte s .sbox a.toNat = sboxAt a := by
  simp [memReadByte, memRead, spaceBytes, spaceBase, sboxAt, slice, List.head?_take, List.head?_drop,
    List.headD_eq_head?_getD]

theorem memReadByte_isbox (s : State) (a : Byte) : memReadByte s .isbox a.toNat = isboxAt a := by
  simp [memReadByte, memRead, spaceBytes, spaceBase, isboxAt, slice, List.head?_take, List.head?_drop,
    List.headD_eq_head?_getD]

theorem memReadByte_rcon (s : State) (k : Nat) : memReadByte s .rcon k = rconAt k := by
  simp [memReadByte, memRead, spaceBytes, spaceBase, rconAt, slice, List.head?_take, List.head?_drop,
    List.headD_eq_head?_getD]

/-- The key operand of a state whose key buffer holds the sixteen bytes of `K`. -/
theorem keyOperand_of_kbuf {s : State} {K : Block} (h : s.kbuf = K.toList) : keyOperand s = K := by
  simp [keyOperand, memReadBlock, memRead, spaceBytes, spaceBase, blockOfList_slice, h]

/-! ## The operand forms -/

theorem rconIndex_eq_some {a : Byte} (h1 : 1 ≤ a.toNat) (h2 : a.toNat ≤ 10) : rconIndex a = some a.toNat := by
  simp [rconIndex, h1, h2]

theorem rconIndex_eq_none {a : Byte} (h : a.toNat < 1 ∨ 10 < a.toNat) : rconIndex a = none := by
  simp only [rconIndex, ite_eq_right_iff, reduceCtorEq, imp_false]
  omega

theorem roundNumber_eq_some (n : Fin 11) : roundNumber (BitVec.ofNat 8 n.val) = some n := by
  revert n
  decide

theorem roundNumber_eq_none {a : Byte} (h : 10 < a.toNat) : roundNumber a = none := by
  simp [roundNumber, h]

end Sys2Proof.Machine
end

