-- ==== Sys2Proof/Laws/PerInstr.lean ====
section
/-! SUPPORT. The family EncodingRow: the word of every well-formed command is in its row of the opcode map, that is
`w & mask == match` with the row's own mask and match (R92). One lemma a constructor. -/

namespace Sys2Proof.Laws.EncodingRow

/-- The `match` and `mask` columns of R92. -/
def matchMask : Instr → CmdWord × CmdWord
  | .xtime _ => (0x10000000, 0xFFFF00FF)
  | .gmul _ _ => (0x11000000, 0xFFFF0000)
  | .sbox _ => (0x20000000, 0xFFFF00FF)
  | .isbox _ => (0x21000000, 0xFFFF00FF)
  | .rcon _ => (0x22000000, 0xFFFF00FF)
  | .keyexp => (0x30000000, 0xFFFFFFFF)
  | .subb => (0x40000000, 0xFFFFFFFF)
  | .shrow => (0x41000000, 0xFFFFFFFF)
  | .mixc => (0x42000000, 0xFFFFFFFF)
  | .addrk _ => (0x43000000, 0xFFFF00FF)
  | .isubb => (0x50000000, 0xFFFFFFFF)
  | .ishrow => (0x51000000, 0xFFFFFFFF)
  | .imixc => (0x52000000, 0xFFFFFFFF)
  | .encblk => (0x60000000, 0xFFFFFFFF)
  | .decblk => (0x61000000, 0xFFFFFFFF)
  | .pad => (0x70000000, 0xFFFFFFFF)
  | .unpad => (0x71000000, 0xFFFFFFFF)
  | .cbcenc => (0x80000000, 0xFFFFFFFF)
  | .cbcdec => (0x81000000, 0xFFFFFFFF)
  | .clr => (0xF0000000, 0xFFFFFFFF)

/-- The encoder's word is in the command's row of the opcode map. -/
def Statement (i : Instr) : Prop := i.wellFormed = true → encode i &&& (matchMask i).2 = (matchMask i).1

/-- A word masked to its two upper fields and its lowest. -/
theorem and_mask_a (op a : Byte) : packWord op a 0 &&& 0xFFFF00FF = packWord op 0 0 := by
  apply BitVec.eq_of_getLsbD_eq
  intro i h
  rw [BitVec.getLsbD_and, packWord, packWord, getLsbD_word, getLsbD_word]
  interval_cases i <;> simp

/-- A word masked to its two upper fields. -/
theorem and_mask_ab (op a b : Byte) : packWord op a b &&& 0xFFFF0000 = packWord op 0 0 := by
  apply BitVec.eq_of_getLsbD_eq
  intro i h
  rw [BitVec.getLsbD_and, packWord, packWord, getLsbD_word, getLsbD_word]
  interval_cases i <;> simp

theorem xtime (a : Byte) : Statement (.xtime a) := fun _ => and_mask_a 0x10 a
theorem gmul (a b : Byte) : Statement (.gmul a b) := fun _ => and_mask_ab 0x11 a b
theorem sbox (a : Byte) : Statement (.sbox a) := fun _ => and_mask_a 0x20 a
theorem isbox (a : Byte) : Statement (.isbox a) := fun _ => and_mask_a 0x21 a
theorem rcon (a : Byte) : Statement (.rcon a) := fun _ => and_mask_a 0x22 a
theorem keyexp : Statement .keyexp := fun _ => by decide
theorem subb : Statement .subb := fun _ => by decide
theorem shrow : Statement .shrow := fun _ => by decide
theorem mixc : Statement .mixc := fun _ => by decide
theorem addrk (a : Byte) : Statement (.addrk a) := fun _ => and_mask_a 0x43 a
theorem isubb : Statement .isubb := fun _ => by decide
theorem ishrow : Statement .ishrow := fun _ => by decide
theorem imixc : Statement .imixc := fun _ => by decide
theorem encblk : Statement .encblk := fun _ => by decide
theorem decblk : Statement .decblk := fun _ => by decide
theorem pad : Statement .pad := fun _ => by decide
theorem unpad : Statement .unpad := fun _ => by decide
theorem cbcenc : Statement .cbcenc := fun _ => by decide
theorem cbcdec : Statement .cbcdec := fun _ => by decide
theorem clr : Statement .clr := fun _ => by decide

end Sys2Proof.Laws.EncodingRow
end

