-- ==== Sys2Proof/Laws/Steps.lean ====
section
/-! SUPPORT. What a step and the two CBC loops can do, said once. -/

namespace Sys2Proof.Machine

/-- With no event, a step changes nothing. -/
theorem step_of_idle {s : State} (h : s.pending = []) : step s = .next s := by
  simp [step, serveNext, h]

/-- With an event, a step serves it on the state without it. -/
theorem step_of_event {s : State} {e : HostEvent} {rest : List HostEvent} (h : s.pending = e :: rest) :
    step s = serve e (s.setPending rest) := by
  simp [step, serveNext, h]

theorem runCommand_of_ok {w : CmdWord} {i : Instr} (h : decode w = .ok i) (s : State) :
    runCommand w s = exec i s := by
  simp [runCommand, h]

theorem runCommand_of_error {w : CmdWord} {d : DecodeError} (h : decode w = .error d) (s : State) :
    runCommand w s = raise .illegalCommand s := by
  simp [runCommand, h]

/-- A command either executes a decoded instruction or raises `IllegalCommand`: nothing else (R94). -/
theorem runCommand_cases (w : CmdWord) (s : State) :
    (∃ i, decode w = .ok i ∧ runCommand w s = exec i s)
      ∨ ((∃ d, decode w = .error d) ∧ runCommand w s = raise .illegalCommand s) := by
  cases h : decode w with
  | ok i => exact .inl ⟨i, rfl, runCommand_of_ok h s⟩
  | error d => exact .inr ⟨⟨d, rfl⟩, runCommand_of_error h s⟩

/-- The loop of `CBCENC` writes `S` and `DOUT` only. -/
theorem cbcencLoop_writes (M : List Byte) (n i : Nat) (prev : Block) (s : State) :
    ∃ B D, cbcencLoop M n i prev s = (s.setS B).setDout D := by
  induction n generalizing i prev s with
  | zero => exact ⟨s.sReg, s.dout, rfl⟩
  | succ n ih =>
    simp only [cbcencLoop]
    obtain ⟨B, D, h⟩ := ih (i + 1) _ _
    refine ⟨B, D, h.trans ?_⟩
    simp only [State.setS, State.setDout, State.appendDout]

/-- The loop of `CBCDEC` writes `S` only. -/
theorem cbcdecLoop_writes (n i : Nat) (prev : Block) (M : List Byte) (s : State) :
    ∃ B, (cbcdecLoop n i prev M s).1 = s.setS B := by
  induction n generalizing i prev M s with
  | zero => exact ⟨s.sReg, rfl⟩
  | succ n ih =>
    simp only [cbcdecLoop]
    obtain ⟨B, h⟩ := ih (i + 1) _ _ _
    refine ⟨B, h.trans ?_⟩
    simp only [State.setS]

end Sys2Proof.Machine
end

