-- ==== Sys2Proof/Tests/Slice0.lean ====
section
/-! SUPPORT. Tests of the model: ill-formed terms, decoding from words written bit by bit, one or two steps a command
with results from the spec's own examples and vectors, and a witness for the hypotheses of each statement. -/

namespace Sys2Proof.Tests

open Sys2Proof.Machine Sys2Proof.Claims

/-! ## Helpers -/

/-- A view of the next state, if there is one. -/
def view {α : Type} (f : State → α) : Result → Option α
  | .next s => some (f s)
  | .fault _ => none
  | .refused _ => none

/-- The key of Scenario B (95_test_vectors.md, 1.1). -/
def keyB : Block := #v[0x00, 0x01, 0x02, 0x03, 0x04, 0x05, 0x06, 0x07, 0x08, 0x09, 0x0a, 0x0b, 0x0c, 0x0d, 0x0e, 0x0f]

/-- The plaintext block of Scenario B. -/
def plainB : Block := #v[0x00, 0x11, 0x22, 0x33, 0x44, 0x55, 0x66, 0x77, 0x88, 0x99, 0xaa, 0xbb, 0xcc, 0xdd, 0xee, 0xff]

/-- The ciphertext block of Scenario B. -/
def cipherB : Block := #v[0x69, 0xc4, 0xe0, 0xd8, 0x6a, 0x7b, 0x04, 0x30, 0xd8, 0xcd, 0xb7, 0x80, 0x70, 0xb4, 0xc5, 0x5a]

/-- The draw of program P3 (95_test_vectors.md, 12). -/
def drawP3 : Block := #v[0x10, 0x11, 0x12, 0x13, 0x14, 0x15, 0x16, 0x17, 0x18, 0x19, 0x1a, 0x1b, 0x1c, 0x1d, 0x1e, 0x1f]

/-- The ciphertext of "abc" in program P3. -/
def cipherP3 : List Byte :=
  drawP3.toList ++
    [0x12, 0x50, 0x2c, 0xb0, 0x82, 0xa4, 0x3c, 0x4b, 0x02, 0x9b, 0xb6, 0x7b, 0x4f, 0x00, 0xf5, 0xd7]

/-- The reset state with a block in `S`. -/
def withS (B : Block) : State := { State.reset with sReg := B }

/-- The reset state with the key of Scenario B loaded. -/
def withKey : State := { State.reset with kbuf := keyB.toList }

/-- The same with its schedule in `RK`. -/
def withSchedule (B : Block) : State := { withKey with rk := expand keyB, sv := true, sReg := B }

/-- The reset state with input data. -/
def withData (D : List Byte) : State := { State.reset with din := D, dout := [0x01, 0x02, 0x03] }

/-! ## Ill-formed terms: each range check refuses one (R95) -/

theorem test_rcon_zero_ill_formed : (Instr.rcon 0).wellFormed = false := by decide
theorem test_rcon_eleven_ill_formed : (Instr.rcon 11).wellFormed = false := by decide
theorem test_addrk_eleven_ill_formed : (Instr.addrk 11).wellFormed = false := by decide
theorem test_ranges_well_formed :
    (Instr.rcon 1).wellFormed ∧ (Instr.rcon 10).wellFormed ∧ (Instr.addrk 0).wellFormed
      ∧ (Instr.addrk 10).wellFormed := by decide

/-! ## Decoding: every constructor from its word, bit by bit (R90, R92) -/

theorem test_decode_xtime : decode 0b00010000_00000000_01010111_00000000#32 = .ok (.xtime 0x57) := by decide
theorem test_decode_gmul : decode 0b00010001_00000000_01010111_00010011#32 = .ok (.gmul 0x57 0x13) := by decide
theorem test_decode_sbox : decode 0b00100000_00000000_01010011_00000000#32 = .ok (.sbox 0x53) := by decide
theorem test_decode_isbox : decode 0b00100001_00000000_11101101_00000000#32 = .ok (.isbox 0xed) := by decide
theorem test_decode_rcon : decode 0b00100010_00000000_00001001_00000000#32 = .ok (.rcon 0x09) := by decide
theorem test_decode_keyexp : decode 0b00110000_00000000_00000000_00000000#32 = .ok .keyexp := by decide
theorem test_decode_subb : decode 0b01000000_00000000_00000000_00000000#32 = .ok .subb := by decide
theorem test_decode_shrow : decode 0b01000001_00000000_00000000_00000000#32 = .ok .shrow := by decide
theorem test_decode_mixc : decode 0b01000010_00000000_00000000_00000000#32 = .ok .mixc := by decide
theorem test_decode_addrk : decode 0b01000011_00000000_00001010_00000000#32 = .ok (.addrk 0x0a) := by decide
theorem test_decode_isubb : decode 0b01010000_00000000_00000000_00000000#32 = .ok .isubb := by decide
theorem test_decode_ishrow : decode 0b01010001_00000000_00000000_00000000#32 = .ok .ishrow := by decide
theorem test_decode_imixc : decode 0b01010010_00000000_00000000_00000000#32 = .ok .imixc := by decide
theorem test_decode_encblk : decode 0b01100000_00000000_00000000_00000000#32 = .ok .encblk := by decide
theorem test_decode_decblk : decode 0b01100001_00000000_00000000_00000000#32 = .ok .decblk := by decide
theorem test_decode_pad : decode 0b01110000_00000000_00000000_00000000#32 = .ok .pad := by decide
theorem test_decode_unpad : decode 0b01110001_00000000_00000000_00000000#32 = .ok .unpad := by decide
theorem test_decode_cbcenc : decode 0b10000000_00000000_00000000_00000000#32 = .ok .cbcenc := by decide
theorem test_decode_cbcdec : decode 0b10000001_00000000_00000000_00000000#32 = .ok .cbcdec := by decide
theorem test_decode_clr : decode 0b11110000_00000000_00000000_00000000#32 = .ok .clr := by decide

/-- R93 to R95, words of section 10 of the test vectors: one for each rejection. -/
theorem test_decode_rejects :
    decode 0x00000000 = .error .reservedOpcode ∧ decode 0xFFFFFFFF = .error .reservedOpcode
      ∧ decode 0x10FF5700 = .error .rsvNotZero ∧ decode 0x100057FF = .error .bNotZero
      ∧ decode 0x30000100 = .error .aNotZero ∧ decode 0x22000000 = .error .rconRange
      ∧ decode 0x4300FF00 = .error .roundRange := by decide

/-- The table's numbering of bits, at the first and the last row. -/
theorem test_decode_table_word :
    decodeTableWord 32 0x10005700 = some (.xtime 0x57) ∧ decodeTableWord 32 0xF0000000 = some .clr
      ∧ decodeTableWord 32 0xF1000000 = none := by decide

/-- A word placed for the next step is the word the next step runs. -/
theorem test_fetch_word : view (·.res) (step (State.reset.withFetchWord 32 0x20005300)) = some 0xed := by decide

/-! ## Steps: results from the examples of the command rules and from 95_test_vectors.md -/

/-- R111: `xtime(0x80) == 0x1B`. -/
theorem test_xtime_reduces :
    view (·.res) (exec (.xtime 0x80) State.reset) = some 0x1b := by decide

/-- R111: `xtime(0xFF) == 0xE5`. -/
theorem test_xtime_of_ff :
    view (·.res) (exec (.xtime 0xff) State.reset) = some 0xe5 := by decide

/-- R114 example. -/
theorem test_gmul :
    view (·.res) (exec (.gmul 0x57 0x13) State.reset) = some 0xfe := by decide

/-- R112: `mul(0xFF, 0xFF) == 0x13`. -/
theorem test_gmul_of_ff :
    view (·.res) (exec (.gmul 0xff 0xff) State.reset) = some 0x13 := by decide

/-- R123: the example and the last entry. -/
theorem test_sbox :
    view (·.res) (exec (.sbox 0x53) State.reset) = some 0xed
      ∧ view (·.res) (exec (.sbox 0xff) State.reset) = some 0x16 := by decide

/-- R124: the example and the last entry. -/
theorem test_isbox :
    view (·.res) (exec (.isbox 0xed) State.reset) = some 0x53
      ∧ view (·.res) (exec (.isbox 0xff) State.reset) = some 0x7d := by decide

/-- R125: the first and the last constant. -/
theorem test_rcon :
    view (·.res) (exec (.rcon 1) State.reset) = some 0x01
      ∧ view (·.res) (exec (.rcon 10) State.reset) = some 0x36 := by decide

/-- R95: index 0 is illegal and leaves `RES`. -/
theorem test_rcon_range :
    view (fun t => (t.res, t.err)) (exec (.rcon 0) { State.reset with res := 0x5a })
      = some (0x5a, .illegalCommand) := by decide

/-- R133 example: byte 16 and byte 175 of the schedule (section 11). -/
theorem test_keyexp :
    view (fun t => (t.rk.toList.getD 16 0, t.rk.toList.getD 175 0, status t)) (exec .keyexp withKey)
      = some (0xd6, 0xc5, 0x08) := by decide +kernel

/-- R133: fifteen bytes are no key. -/
theorem test_keyexp_bad_length :
    view (fun t => (status t, t.rk)) (exec .keyexp { State.reset with kbuf := List.replicate 15 0x01 })
      = some (0x01, zeroSchedule) := by decide +kernel

/-- Section 6, first line. -/
theorem test_subb :
    view (·.sReg) (exec .subb (withS #v[0x00, 0x01, 0x02, 0x03, 0x04, 0x05, 0x06, 0x07, 0x08, 0x09, 0x0a, 0x0b, 0x0c, 0x0d, 0x0e, 0x0f]))
      = some #v[0x63, 0x7c, 0x77, 0x7b, 0xf2, 0x6b, 0x6f, 0xc5, 0x30, 0x01, 0x67, 0x2b, 0xfe, 0xd7, 0xab, 0x76] := by decide +kernel

/-- R145 example. -/
theorem test_shrow :
    view (·.sReg) (exec .shrow (withS #v[0x00, 0x01, 0x02, 0x03, 0x04, 0x05, 0x06, 0x07, 0x08, 0x09, 0x0a, 0x0b, 0x0c, 0x0d, 0x0e, 0x0f]))
      = some #v[0x00, 0x05, 0x0a, 0x0f, 0x04, 0x09, 0x0e, 0x03, 0x08, 0x0d, 0x02, 0x07, 0x0c, 0x01, 0x06, 0x0b] := by decide +kernel

/-- Section 6: the example columns of R146. -/
theorem test_mixc :
    view (·.sReg) (exec .mixc (withS #v[0xdb, 0x13, 0x53, 0x45, 0xf2, 0x0a, 0x22, 0x5c, 0x01, 0x01, 0x01, 0x01, 0xc6, 0xc6, 0xc6, 0xc6]))
      = some #v[0x8e, 0x4d, 0xa1, 0xbc, 0x9f, 0xdc, 0x58, 0x9d, 0x01, 0x01, 0x01, 0x01, 0xc6, 0xc6, 0xc6, 0xc6] := by decide +kernel

/-- R153 example. -/
theorem test_isubb :
    view (·.sReg) (exec .isubb (withS #v[0x7a, 0x9f, 0x10, 0x27, 0x89, 0xd5, 0xf5, 0x0b, 0x2b, 0xef, 0xfd, 0x9f, 0x3d, 0xca, 0x4e, 0xa7]))
      = some #v[0xbd, 0x6e, 0x7c, 0x3d, 0xf2, 0xb5, 0x77, 0x9e, 0x0b, 0x61, 0x21, 0x6e, 0x8b, 0x10, 0xb6, 0x89] := by decide +kernel

/-- R154 example. -/
theorem test_ishrow :
    view (·.sReg) (exec .ishrow (withS #v[0x00, 0x01, 0x02, 0x03, 0x04, 0x05, 0x06, 0x07, 0x08, 0x09, 0x0a, 0x0b, 0x0c, 0x0d, 0x0e, 0x0f]))
      = some #v[0x00, 0x0d, 0x0a, 0x07, 0x04, 0x01, 0x0e, 0x0b, 0x08, 0x05, 0x02, 0x0f, 0x0c, 0x09, 0x06, 0x03] := by decide +kernel

/-- R155 example. -/
theorem test_imixc :
    view (·.sReg) (exec .imixc (withS #v[0xe9, 0xf7, 0x4e, 0xec, 0x02, 0x30, 0x20, 0xf6, 0x1b, 0xf2, 0xcc, 0xf2, 0x35, 0x3c, 0x21, 0xc7]))
      = some #v[0x54, 0xd9, 0x90, 0xa1, 0x6b, 0xa0, 0x9a, 0xb5, 0x96, 0xbb, 0xf4, 0x0e, 0xa1, 0x11, 0x70, 0x2f] := by decide +kernel

/-- Section 6: `ADDRK 10` on the zero block gives round key 10. -/
theorem test_addrk :
    view (·.sReg) (exec (.addrk 10) (withSchedule zeroBlock))
      = some #v[0x13, 0x11, 0x1d, 0x7f, 0xe3, 0x94, 0x4a, 0x17, 0xf3, 0x07, 0xa7, 0x8b, 0x4d, 0x2b, 0x30, 0xc5] := by decide +kernel

/-- Section 6: `ADDRK 3` in the reset state. -/
theorem test_addrk_no_schedule :
    view (fun t => (t.sReg, status t)) (exec (.addrk 3) (withS plainB)) = some (plainB, 0x05) := by decide

/-- R162 example, Scenario B. -/
theorem test_encblk :
    view (·.sReg) (exec .encblk (withSchedule plainB)) = some cipherB := by decide +kernel

/-- R163 example. -/
theorem test_decblk :
    view (·.sReg) (exec .decblk (withSchedule cipherB)) = some plainB := by decide +kernel

/-- R172: sixteen bytes get a whole block of 0x10. -/
theorem test_pad_full_block :
    view (·.dout) (exec .pad (withData (List.replicate 16 0xaa)))
      = some (List.replicate 16 0xaa ++ List.replicate 16 0x10) := by decide

/-- R172 example. -/
theorem test_pad_abc :
    view (·.dout) (exec .pad (withData [0x61, 0x62, 0x63]))
      = some ([0x61, 0x62, 0x63] ++ List.replicate 13 0x0d) := by decide

/-- Section 8: `05*15 01`. -/
theorem test_unpad_last_byte_only :
    view (·.dout) (exec .unpad (withData (List.replicate 15 0x05 ++ [0x01]))) = some (List.replicate 15 0x05) := by decide

/-- Section 8: `05*13 02 03*2` fails and empties `DOUT`. -/
theorem test_unpad_mismatch :
    view (fun t => (t.dout, status t)) (exec .unpad (withData (List.replicate 13 0x05 ++ [0x02, 0x03, 0x03])))
      = some ([], 0x03) := by decide

/-- R182 example: "abc" under the draw of program P3. -/
theorem test_cbcenc :
    view (fun t => (t.dout, status t, t.rng))
        (exec .cbcenc { withKey with din := [0x61, 0x62, 0x63], rng := [drawP3, plainB] })
      = some (cipherP3, 0x00, [plainB]) := by decide +kernel

/-- R182: without a key no draw is taken. -/
theorem test_cbcenc_no_key :
    view (fun t => (t.dout, status t, t.draws)) (exec .cbcenc (withData [0x61])) = some ([], 0x01, 0) := by decide

/-- R183 example. -/
theorem test_cbcdec :
    view (fun t => (t.dout, status t)) (exec .cbcdec { withKey with din := cipherP3 })
      = some ([0x61, 0x62, 0x63], 0x00) := by decide +kernel

/-- R203, section 9: both conditions hold, the key is reported. -/
theorem test_cbcdec_key_before_length :
    view (fun t => (t.dout, status t)) (exec .cbcdec (withData (List.replicate 31 0x00))) = some ([], 0x01) := by decide

/-- R195: the reset state again. -/
theorem test_clr :
    view id (exec .clr { withKey with res := 0x5a, dout := [0x01], err := .noSchedule }) = some State.reset := by decide +kernel

/-- Section 10: an illegal word with a schedule valid. -/
theorem test_illegal_word_keeps_output :
    view (fun t => (t.dout, t.res, status t))
        (step (issue 0x99000000 { withData [] with sv := true, res := 0x5a }))
      = some ([0x01, 0x02, 0x03], 0x5a, 0x0c) := by decide

/-! ## The outside world (section 11) -/

/-- R67, section 11: a key load clears the schedule and keeps `ERR`. -/
theorem test_load_key_clears_schedule :
    view (fun t => (t.klen, status t, hostReadValue t 0x12 4, hostReadValue t 0x12 5))
        (step (present (.loadKey [0x01, 0x02, 0x03, 0x04, 0x05]) { withKey with sv := true, err := .illegalCommand }))
      = some (5, 0x04, 5, 0) := by decide

/-- R68, section 11: a shorter load leaves nothing of the longer one. -/
theorem test_load_data_replaces :
    view (fun t => (t.dinlen, hostReadValue t 0x13 0, hostReadValue t 0x13 1))
        (step (present (.loadData [0xee]) (withData [0xaa, 0xbb, 0xcc, 0xdd])))
      = some (1, 0xee, 0) := by decide

/-- R70: an unused id and `CMD` read 0. -/
theorem test_read_unused :
    view (·.readback) (step (present (.read 0x7f 0) withKey)) = some [0]
      ∧ view (·.readback) (step (present (.read 0x00 0) withKey)) = some [0] := by decide

/-- R35: a write to the read-only `RES` is ignored. -/
theorem test_write_read_only : view id (step (present (.writeId 0x02 0x55) withKey)) = some withKey := by
  decide +kernel

/-! ## Witnesses: for each statement with hypotheses, values that meet them -/

theorem witness_StepRunsDecodedCommand :
    (issue 0x10005700 withKey).pending = .writeCmd 0x10005700 :: [] ∧ decode 0x10005700 = .ok (.xtime 0x57) := by
  decide

theorem witness_EveryWordIsCommandOrIllegal_word : ¬ IsCommand 0x00000000 ∧ IsCommand 0x22000A00 := by
  simp only [IsCommand]
  decide

theorem witness_EveryWordIsCommandOrIllegal_fields :
    (0x12 : Byte) ∉ opcodes ∧ (0x01 : Byte) ≠ 0x00 ∧ (0x30 : Byte) ∉ ([0x10, 0x11, 0x20, 0x21, 0x22, 0x43] : List Byte)
      ∧ (0x10 : Byte) ≠ 0x11 ∧ (11 : Nat) ≤ (0x0B : Byte).toNat ∧ (11 : Nat) ≤ (0xFF : Byte).toNat := by decide

theorem witness_DecodeOfEncode : (Instr.rcon 10).wellFormed = true ∧ (Instr.addrk 0).wellFormed = true := by decide

theorem witness_EncodeOfDecode : decode 0x1100FFFF = .ok (.gmul 0xff 0xff) := by decide

theorem witness_HostLoadKeyEffect :
    (List.replicate 32 (0x01 : Byte)).length ≤ 32 ∧ 32 < (List.replicate 33 (0x01 : Byte)).length := by decide

theorem witness_HostLoadDataEffect :
    (∀ c, ({ State.reset with cap := some 32 } : State).cap = some c → (List.replicate 32 (0x01 : Byte)).length ≤ c)
      ∧ ({ State.reset with cap := some 32 } : State).cap = some 32
      ∧ 32 < (List.replicate 33 (0x01 : Byte)).length := by
  refine ⟨?_, rfl, by decide⟩
  intro c h
  cases h
  decide

theorem witness_HostWriteSEffect : (15 : Fin 16) ≠ 0 := by decide

theorem witness_HostReadEffect : (6 ≤ 0x06 ∧ 0x06 ≤ 0x0F) ∧ (6 ≤ 0x0F ∧ 0x0F ≤ 0x0F) ∧ 0x15 ≤ 0x15 := by decide

theorem witness_HostWriteByIdEffect : 0x14 ∈ [0x01, 0x02, 0x03, 0x04, 0x05, 0x11, 0x14] ∧ 6 ≤ 0x0F ∧ 0x15 ≤ 0x15 := by
  decide

theorem witness_ResetValues : EngineReset { State.reset with cap := some 64, draws := 3 } := by
  simp only [EngineReset]
  decide +kernel

theorem witness_CommandsInResetState : (10 : Byte).toNat ≤ 10 := by decide

theorem witness_HostTransactionsKeepErr :
    (HostEvent.read 0x01 0 ≠ .reset ∧ (∀ w, HostEvent.read 0x01 0 ≠ .writeCmd w)
      ∧ ∀ v, HostEvent.read 0x01 0 ≠ .writeId 0x00 v)
      ∧ (view id (step (present (.read 0x01 0) withKey))).isSome := by
  refine ⟨⟨?_, ?_, ?_⟩, rfl⟩ <;> simp

theorem witness_rejected_fields : (0x01 : Byte) ≠ 0x00 ∨ (0x00 : Byte) ≠ 0x00 := by decide

theorem witness_GaloisFieldLaws : (0x53 : Byte) ≠ 0x00 ∧ mul 0x53 0xCA = 0x01 := by decide

theorem witness_RconCommand :
    (1 ≤ (0x01 : Byte).toNat ∧ (0x01 : Byte).toNat ≤ 10) ∧ (1 ≤ (0x0A : Byte).toNat ∧ (0x0A : Byte).toNat ≤ 10)
      ∧ (0x00 : Byte).toNat < 1 ∧ 10 < (0x0B : Byte).toNat := by decide

theorem witness_SboxIsAffineOfInverse :
    (((0x00 : Byte) = 0x00 → (0x00 : Byte) = 0x00) ∧ ((0x00 : Byte) ≠ 0x00 → mul 0x00 0x00 = 0x01))
      ∧ ((0x53 : Byte) = 0x00 → (0xCA : Byte) = 0x00) ∧ ((0x53 : Byte) ≠ 0x00 → mul 0x53 0xCA = 0x01) := by decide

theorem witness_KeyexpCommand : withKey.kbuf = keyB.toList ∧ (withData []).klen ≠ 16 := by decide

theorem witness_ExpandRecurrence : (4 ≤ 4 ∧ 4 ≤ 43 ∧ 0 < 4) ∧ 4 ≤ 43 ∧ 43 ≤ 43 ∧ 3 < 4 := by decide

theorem witness_RoundKeysDetermineEachOther : roundKey (expand keyB) 10 = roundKey (expand keyB) 10 := rfl

theorem witness_AddrkCommand :
    (withSchedule plainB).sv = true ∧ (withS plainB).sv = false ∧ (10 : Byte).toNat ≤ 10 ∧ 11 ≤ (11 : Byte).toNat := by
  decide

theorem witness_StepLaws : ∀ r r' c : Fin 4, matrixByte (Vector.replicate 16 0xc6) r c
    = matrixByte (Vector.replicate 16 0xc6) r' c := by decide

theorem witness_schedule_present : (withSchedule plainB).sv = true ∧ withKey.sv = false := by decide

theorem witness_PadCommand : (view id (exec .pad (withData [0x61]))).isSome := rfl

theorem witness_UnpadCommand_valid :
    (withData (List.replicate 16 0x10)).dinlen ≠ 0 ∧ (withData (List.replicate 16 0x10)).dinlen % 16 = 0
      ∧ goodPadding (withData (List.replicate 16 0x10)).din := by
  simp only [goodPadding]
  decide

theorem witness_UnpadCommand_length :
    (withData []).dinlen = 0 ∧ (withData (List.replicate 17 0x05)).dinlen % 16 ≠ 0 := by decide

theorem witness_UnpadCommand_invalid :
    (withData (List.replicate 16 0x11)).dinlen ≠ 0 ∧ (withData (List.replicate 16 0x11)).dinlen % 16 = 0
      ∧ ¬ goodPadding (withData (List.replicate 16 0x11)).din := by
  simp only [goodPadding]
  decide

theorem witness_PaddingLaws : unpad (List.replicate 15 0x05 ++ [0x01]) = .ok (List.replicate 15 0x05) := by decide

theorem witness_CbcencCommand : withKey.kbuf = keyB.toList ∧ (withData [0x61]).klen ≠ 16 := by decide

theorem witness_CbcdecCommand_valid :
    ({ withKey with din := cipherP3 } : State).kbuf = keyB.toList
      ∧ 32 ≤ ({ withKey with din := cipherP3 } : State).dinlen
      ∧ ({ withKey with din := cipherP3 } : State).dinlen % 16 = 0
      ∧ goodPadding (recovered keyB cipherP3)
      ∧ cbcDecrypt keyB cipherP3 = .ok [0x61, 0x62, 0x63] := by
  simp only [goodPadding]
  decide +kernel

theorem witness_CbcdecCommand_length :
    cbcDecrypt keyB (List.replicate 16 0x00) = .error .invalidCiphertextLength
      ∧ (withData []).klen ≠ 16 := by decide

theorem witness_CbcdecCommand_padding : cbcDecrypt keyB (List.replicate 32 0x00) = .error .invalidPadding := by
  decide +kernel

theorem witness_CbcEncryptChain : 0 < (pad []).length / 16 ∧ 1 < (pad (List.replicate 16 0xaa)).length / 16 := by decide

theorem witness_CbcDecryptIsLocal :
    cipherP3.length % 16 = 0 ∧ 1 ≤ 1 ∧ 1 < cipherP3.length / 16 := by decide

/-- A change of block 3 of a ciphertext of four blocks, seen from recovered block 1. -/
theorem witness_CbcDecryptIsLocal_change :
    (∀ j, j ≠ 3 → blockAt (List.replicate 64 0x00) j = blockAt (List.replicate 63 0x00 ++ [0x01]) j)
      ∧ 1 < (List.replicate 64 (0x00 : Byte)).length / 16 ∧ 1 ≠ 3 ∧ 1 ≠ 3 + 1 := by
  refine ⟨?_, by decide, by decide, by decide⟩
  intro j hj
  apply Vector.ext
  intro k hk
  have h : 16 * j + k ≠ 63 := by omega
  simp only [blockAt, Vector.getElem_ofFn, List.getD_eq_getElem?_getD, List.getElem?_append, List.getElem?_replicate,
    List.length_replicate]
  by_cases h1 : 16 * j + k < 63
  · simp [h1, show 16 * j + k < 64 by omega]
  · have h2 : 16 * j + k - 63 ≠ 0 := by omega
    simp [h1, show ¬ 16 * j + k < 64 by omega, h2]

/-- A state that keeps R38, not the reset state: a key of sixteen bytes, input and output. -/
theorem witness_kept :
    Safety.kept { withKey with din := [0x61], dout := [0x01], res := 0x5a, err := .illegalCommand, cap := some 64 } := by
  refine ⟨?_, ⟨by decide, ?_⟩, ⟨?_, ?_, ?_⟩, ⟨?_, fun _ => rfl⟩, by decide, by decide⟩
  · intro c h
    cases h
    decide
  · intro c h
    cases h
    decide
  · intro i h
    simp [hostReadValue, regElements, List.getD_eq_getElem?_getD,
      show withKey.kbuf.length ≤ i from h]
  · intro i h
    simp only [hostReadValue, regElements, List.getD_eq_getElem?_getD]
    rw [List.getElem?_eq_none (by simpa [State.dinlen] using h)]
    rfl
  · intro i h
    simp only [hostReadValue, regElements, List.getD_eq_getElem?_getD]
    rw [List.getElem?_eq_none (by simpa [State.doutlen] using h)]
    rfl
  · intro h
    exact absurd h (by decide)

theorem witness_CbcLengths : withKey.klen = 16 ∧ (view id (exec .cbcenc withKey)).isSome := ⟨by decide, rfl⟩

theorem witness_CbcLengths_short :
    (List.replicate 31 (0x00 : Byte)).length < 32 ∧ (List.replicate 33 (0x00 : Byte)).length % 16 ≠ 0 := by decide

theorem witness_CbcRoundTrip :
    ∀ c, ({ State.reset with cap := some 48 } : State).cap = some c
      → 16 * ((List.replicate 16 (0x61 : Byte)).length / 16 + 2) ≤ c := by
  intro c h
  cases h
  decide

theorem witness_FailuresArePrecise : view (·.err) (exec .keyexp State.reset) = some .invalidKeyLength := by decide

theorem witness_FailuresArePrecise_unpad :
    view (·.err) (exec .unpad (withData (List.replicate 16 0x00))) = some .invalidPadding := by decide

theorem witness_FailuresArePrecise_cbc :
    view (·.err) (exec .cbcenc State.reset) = some .invalidKeyLength
      ∧ view (·.err) (exec .cbcdec withKey) = some .invalidCiphertextLength := by decide

theorem witness_OnlyListedWriters :
    (view id (exec .pad State.reset)).isSome ∧ writesSpace .pad .din = false ∧ writesSpace .pad .dout = true
      ∧ writesRes .pad = false ∧ writesS .pad = false ∧ writesSv .pad = false := ⟨rfl, by decide⟩

theorem witness_FlagsNotRead :
    readsSv .keyexp = false ∧ (view id (exec .keyexp withKey)).isSome
      ∧ (view id (exec .keyexp { withKey with sv := true })).isSome := ⟨rfl, rfl, rfl⟩

theorem witness_KeptByEveryStep_step : (view id (step (issue 0x30000000 withKey))).isSome := rfl

end Sys2Proof.Tests
end

section
/-! PROOF. The net effect of `CBCENC` (R182) and `CBCDEC` (R183). Their loops are followed once, up to the discard that
ends the command, and agree there with `cbc_encrypt` (R180) and `cbc_decrypt` (R181). -/

namespace Sys2Proof.Machine

/-! ## How the discard and the draw meet the other updates -/

@[simp] theorem State.discard_setS (B : Block) (s : State) : (s.setS B).discard = s.discard := rfl
@[simp] theorem State.discard_setSchedule (W : Schedule) (s : State) :
    (s.setSchedule W).discard = s.discard := rfl
@[simp] theorem State.discard_setDout (D : List Byte) (s : State) :
    (s.setDout D).discard = s.discard.setDout D := rfl
@[simp] theorem State.setDout_appendDout (B : Block) (D : List Byte) (s : State) :
    (s.appendDout B).setDout D = s.setDout D := rfl
@[simp] theorem State.takeDraw_setDout (D : List Byte) (s : State) :
    (s.setDout D).takeDraw = s.takeDraw.setDout D := rfl
@[simp] theorem State.takeDraw_setSchedule (W : Schedule) (s : State) :
    (s.setSchedule W).takeDraw = s.takeDraw.setSchedule W := rfl

/-! ## What the key operand and the next draw do not depend on -/

@[simp] theorem keyOperand_setDout (D : List Byte) (s : State) : keyOperand (s.setDout D) = keyOperand s := rfl
@[simp] theorem State.nextDraw_setDout (D : List Byte) (s : State) : (s.setDout D).nextDraw = s.nextDraw := rfl
@[simp] theorem State.nextDraw_setSchedule (W : Schedule) (s : State) :
    (s.setSchedule W).nextDraw = s.nextDraw := rfl

/-! ## The loops -/

theorem memReadBlock_din (s : State) (addr : Nat) :
    memReadBlock s .din addr = blockOfList (slice (s.din.drop addr) 0 16) := rfl

/-- After the discard, all that is left of the loop of `CBCENC` is what `cbc_encrypt`'s loop appends to `DOUT`. -/
theorem discard_cbcencLoop (M : List Byte) (n i : Nat) (prev : Block) (s : State) :
    (cbcencLoop M n i prev s).discard =
      (s.setDout (s.dout ++ cbcEncryptFrom s.rk n (M.drop (16 * i)) prev)).discard := by
  induction n generalizing i prev s with
  | zero => simp [cbcencLoop, cbcEncryptFrom, State.setDout]
  | succ n ih =>
    have hslice : slice M (16 * i) 16 = slice (M.drop (16 * i)) 0 16 := rfl
    simp [cbcencLoop, cbcEncryptFrom, ih, hslice, Nat.mul_succ]

/-- After the discard, nothing is left of the loop of `CBCDEC` in the state. -/
theorem discard_cbcdecLoop (n i : Nat) (prev : Block) (M : List Byte) (s : State) :
    (cbcdecLoop n i prev M s).1.discard = s.discard := by
  obtain ⟨B, hB⟩ := cbcdecLoop_writes n i prev M s
  rw [hB]
  rfl

/-- The loop of `CBCDEC` recovers the blocks that `cbc_decrypt`'s loop does. -/
theorem cbcdecLoop_snd (n i : Nat) (prev : Block) (M : List Byte) (s : State) :
    (cbcdecLoop n i prev M s).2 = M ++ cbcDecryptFrom s.rk n (s.din.drop (16 * i)) prev := by
  induction n generalizing i prev M s with
  | zero => simp [cbcdecLoop, cbcDecryptFrom]
  | succ n ih =>
    simp [cbcdecLoop, cbcDecryptFrom, ih, memReadBlock_din, Nat.mul_succ]

/-! ## The net effect of the two commands -/

/-- The net effect of `CBCENC`. -/
theorem exec_cbcenc (s : State) :
    exec .cbcenc s =
      if s.klen = 16 then complete (s.takeDraw.setDout (cbcEncrypt (keyOperand s) s.din s.nextDraw)).discard
      else raise .invalidKeyLength (s.setDout []).discard := by
  by_cases h : s.klen = 16
  · have hrun : exec .cbcenc s = cbcencRun (s.setDout []) := if_pos h
    simp [h, hrun, cbcencRun, discard_cbcencLoop, cbcEncrypt]
  · exact (if_neg h).trans (if_neg h).symm

/-- The net effect of `CBCDEC`: with a key of sixteen bytes, `cbc_decrypt` decides between its two ends. -/
theorem exec_cbcdec (s : State) :
    exec .cbcdec s =
      if s.klen = 16 then
        match cbcDecrypt (keyOperand s) s.din with
        | .ok D => complete (s.setDout D).discard
        | .error e => raise e (s.setDout []).discard
      else raise .invalidKeyLength (s.setDout []).discard := by
  by_cases h : s.klen = 16
  · rw [if_pos h]
    by_cases hlen : s.din.length < Config.minCiphertext ∨ s.din.length % 16 ≠ 0
    · rw [cbcDecrypt, if_pos hlen]
      exact (if_neg (not_not.mpr h)).trans (if_pos hlen)
    · have hrun : exec .cbcdec s = cbcdecRun (s.setDout []) := (if_neg (not_not.mpr h)).trans (if_neg hlen)
      rw [cbcDecrypt, if_neg hlen, hrun]
      simp [cbcdecRun, cbcdecLoop_snd, discard_cbcdecLoop, memReadBlock_din, State.dinlen, raise] <;> rfl
  · exact (if_pos h).trans (if_neg h).symm

end Sys2Proof.Machine
end

section
/-! PROOF. How long the sequences of 46_padding.md and 47_cbc.md are (R170, R171, R180, R181): what bounds `DOUT` within
its capacity. -/

namespace Sys2Proof.Machine

theorem pad_length (D : List Byte) : (pad D).length = padlen D.length := by
  simp only [pad, padCount, padlen, List.length_append, List.length_replicate]
  omega

theorem unpad_eq_ok {P D : List Byte} (h : unpad P = .ok D) : D = P.take (P.length - lastByte P) := by
  simp only [unpad] at h
  split_ifs at h
  cases h
  rfl

theorem unpad_length_le {P D : List Byte} (h : unpad P = .ok D) : D.length ≤ P.length := by
  rw [unpad_eq_ok h]
  exact List.length_take_le' _ _

theorem cbcEncryptFrom_length (W : Schedule) (n : Nat) (M : List Byte) (prev : Block) :
    (cbcEncryptFrom W n M prev).length = 16 * n := by
  induction n generalizing M prev with
  | zero => rfl
  | succ n ih => simp only [cbcEncryptFrom, List.length_append, Vector.length_toList, ih]; omega

theorem cbcEncrypt_length (K : Block) (P : List Byte) (IV : Block) :
    (cbcEncrypt K P IV).length = 16 + padlen P.length := by
  simp only [cbcEncrypt, List.length_append, Vector.length_toList, cbcEncryptFrom_length, pad_length, padlen]
  omega

theorem cbcDecryptFrom_length (W : Schedule) (n : Nat) (C : List Byte) (prev : Block) :
    (cbcDecryptFrom W n C prev).length = 16 * n := by
  induction n generalizing C prev with
  | zero => rfl
  | succ n ih => simp only [cbcDecryptFrom, List.length_append, Vector.length_toList, ih]; omega

theorem cbcDecrypt_length_le {K : Block} {C D : List Byte} (h : cbcDecrypt K C = .ok D) :
    D.length ≤ C.length := by
  rw [cbcDecrypt] at h
  split_ifs at h
  have hle := unpad_length_le h
  rw [cbcDecryptFrom_length] at hle
  omega

/-! ## What fits into the output -/

/-- A sequence at most 32 bytes longer than one that fits into `DIN` fits into `DOUT` (R26). -/
theorem fits_output {n m : Nat} {cap : Option Nat} (h : fits n cap = true) (hm : m ≤ n + 32) :
    fits m (cap.map (· + 32)) = true := by
  cases cap with
  | none => rfl
  | some c =>
    simp only [fits, Option.map_some, decide_eq_true_eq] at h ⊢
    omega

end Sys2Proof.Machine
end

section
/-! PROOF. The invariant `Safety.kept` of R38 and R22: what it comes to in this model, how each write of a register or
buffer keeps it, and from that each command, each event and the step. -/

namespace Sys2Proof.Safety

open Sys2Proof.Machine

/-! ## What the invariant comes to

The buffers are bare sequences and `STATUS` is put together from `SV` and `ERR`, so two of the five clauses hold of
every state, and the lengths are the canonical form of Machine/Ops.lean. -/

theorem zeroBeyondLength_all (s : State) : zeroBeyondLength s := by
  have hbuf (B : List Byte) (i : Nat) (h : B.length ≤ i) : (B.map (·.toNat)).getD i 0 = 0 :=
    List.getD_eq_default _ _ (by simpa using h)
  exact ⟨hbuf s.kbuf, hbuf s.din, hbuf s.dout⟩

theorem statusLegal_all (s : State) : statusLegal s := by
  simp only [statusLegal, status]
  cases s.sv <;> cases s.err <;> decide

theorem lengthsLegal_iff_wf (s : State) : lengthsLegal s ↔ Memory.wf s = true := by
  simp only [lengthsLegal, Memory.wf_iff, fits_iff, State.klen, State.dinlen, State.doutlen]
  cases s.cap <;> simp

theorem kept_iff (s : State) : kept s ↔ capLegal s ∧ Memory.wf s = true ∧ scheduleCoherent s := by
  simp [kept, lengthsLegal_iff_wf, zeroBeyondLength_all, statusLegal_all]

/-! ## The writes of registers and buffers -/

@[simp] theorem kept_setErr (e : ErrorCode) (s : State) : kept (s.setErr e) ↔ kept s :=
  (kept_iff _).trans (kept_iff s).symm

@[simp] theorem kept_setRes (v : Byte) (s : State) : kept (s.setRes v) ↔ kept s :=
  (kept_iff _).trans (kept_iff s).symm

@[simp] theorem kept_setS (B : Block) (s : State) : kept (s.setS B) ↔ kept s :=
  (kept_iff _).trans (kept_iff s).symm

@[simp] theorem kept_setPending (es : List HostEvent) (s : State) : kept (s.setPending es) ↔ kept s :=
  (kept_iff _).trans (kept_iff s).symm

@[simp] theorem kept_setReadback (vs : List Nat) (s : State) : kept (s.setReadback vs) ↔ kept s :=
  (kept_iff _).trans (kept_iff s).symm

@[simp] theorem kept_takeDraw (s : State) : kept s.takeDraw ↔ kept s :=
  (kept_iff _).trans (kept_iff s).symm

section

variable {s : State}

theorem kept_setSchedule (h : kept s) (hk : s.klen = 16) :
    kept (s.setSchedule (expand (keyOperand s))) := by
  rw [kept_iff] at h ⊢
  obtain ⟨hcap, hwf, -⟩ := h
  generalize hW : expand (keyOperand s) = W
  exact ⟨hcap, hwf, fun _ => ⟨hk, hW.symm⟩, nofun⟩

theorem kept_discard (h : kept s) : kept s.discard := by
  rw [kept_iff] at h ⊢
  obtain ⟨hcap, hwf, -⟩ := h
  exact ⟨hcap, hwf, nofun, fun _ => rfl⟩

theorem kept_clearEngine (h : kept s) : kept s.clearEngine := by
  rw [kept_iff] at h ⊢
  obtain ⟨hcap, -, -⟩ := h
  exact ⟨hcap, Memory.wf_clearEngine s, nofun, fun _ => rfl⟩

/-- A new key is legal once the schedule of the old one is dropped (R67). -/
theorem kept_setKbuf_dropSchedule (h : kept s) {K : List Byte} (hK : K.length ≤ 32) :
    kept (s.setKbuf K).dropSchedule := by
  rw [kept_iff] at h ⊢
  obtain ⟨hcap, hwf, -⟩ := h
  exact ⟨hcap, Memory.wf_setKbuf hwf hK, nofun, fun _ => rfl⟩

theorem kept_setDin (h : kept s) {M : List Byte} (hM : fits M.length s.cap = true) : kept (s.setDin M) := by
  rw [kept_iff] at h ⊢
  obtain ⟨hcap, hwf, hsched⟩ := h
  exact ⟨hcap, Memory.wf_setDin hwf hM, hsched⟩

/-- An output at most 32 bytes longer than the input is within its capacity (R26). -/
theorem kept_setDout (h : kept s) {D : List Byte} (hD : D.length ≤ s.din.length + 32) : kept (s.setDout D) := by
  rw [kept_iff] at h ⊢
  obtain ⟨hcap, hwf, hsched⟩ := h
  obtain ⟨-, hdin, -⟩ := (Memory.wf_iff s).mp hwf
  exact ⟨hcap, Memory.wf_setDout hwf (fits_output hdin hD), hsched⟩

theorem kept_setDout_nil (h : kept s) : kept (s.setDout []) := kept_setDout h (Nat.zero_le _)

/-! ## The answers of a command, an event and a step -/

/-- Whatever state a result answers keeps the invariant. -/
def Keeps (r : Result) : Prop := ∀ t, r = .next t → kept t

theorem keeps_next (h : kept s) : Keeps (.next s) := by
  rintro t ⟨⟩
  exact h

theorem keeps_refused (r : Refusal) : Keeps (.refused r) := nofun

theorem keeps_complete (h : kept s) : Keeps (complete s) := keeps_next ((kept_setErr _ s).mpr h)

theorem keeps_raise (e : ErrorCode) (h : kept s) : Keeps (raise e s) := keeps_next ((kept_setErr _ s).mpr h)

theorem keeps_exec (h : kept s) (i : Instr) : Keeps (exec i s) := by
  cases i with
  | xtime a | gmul a b | sbox a | isbox a => exact keeps_complete ((kept_setRes _ s).mpr h)
  | subb | shrow | mixc | isubb | ishrow | imixc => exact keeps_complete ((kept_setS _ s).mpr h)
  | rcon a =>
    simp only [exec, execRcon]
    split
    · exact keeps_complete ((kept_setRes _ s).mpr h)
    · exact keeps_raise _ h
  | addrk a =>
    simp only [exec, execAddrk]
    split
    · exact keeps_raise _ h
    · split
      · exact keeps_complete ((kept_setS _ s).mpr h)
      · exact keeps_raise _ h
  | encblk | decblk =>
    simp only [exec, execEncblk, execDecblk]
    split
    · exact keeps_complete ((kept_setS _ s).mpr h)
    · exact keeps_raise _ h
  | keyexp =>
    simp only [exec, execKeyexp]
    split
    next hk => exact keeps_complete (kept_setSchedule h hk)
    next => exact keeps_raise _ h
  | pad =>
    have hlen : (pad s.din).length ≤ s.din.length + 32 := by rw [pad_length, padlen]; omega
    exact keeps_complete (kept_setDout (kept_setDout_nil h) hlen)
  | unpad =>
    simp only [exec, execUnpad]
    split
    next D hD =>
      exact keeps_complete (kept_setDout (kept_setDout_nil h) (Nat.le_add_right_of_le (unpad_length_le hD)))
    next e _ => exact keeps_raise e (kept_setDout_nil h)
  | cbcenc =>
    rw [exec_cbcenc]
    have hlen : (cbcEncrypt (keyOperand s) s.din s.nextDraw).length ≤ s.din.length + 32 := by
      rw [cbcEncrypt_length, padlen]; omega
    split
    · exact keeps_complete (kept_discard (kept_setDout ((kept_takeDraw s).mpr h) hlen))
    · exact keeps_raise _ (kept_discard (kept_setDout_nil h))
  | cbcdec =>
    rw [exec_cbcdec]
    split
    · split
      next D hD =>
        exact keeps_complete (kept_discard (kept_setDout h (Nat.le_add_right_of_le (cbcDecrypt_length_le hD))))
      next e _ => exact keeps_raise e (kept_discard (kept_setDout_nil h))
    · exact keeps_raise _ (kept_discard (kept_setDout_nil h))
  | clr => exact keeps_complete (kept_clearEngine h)

theorem keeps_runCommand (h : kept s) (w : CmdWord) : Keeps (runCommand w s) := by
  obtain ⟨i, -, hi⟩ | ⟨-, herr⟩ := runCommand_cases w s
  · rw [hi]
    exact keeps_exec h i
  · rw [herr]
    exact keeps_raise _ h

theorem keeps_hostWriteId (h : kept s) (id : Nat) (v : CmdWord) : Keeps (hostWriteId id v s) := by
  unfold hostWriteId
  split
  · exact keeps_runCommand h v
  · exact keeps_refused _
  · exact keeps_refused _
  · exact keeps_refused _
  · exact keeps_next h

theorem keeps_serve (h : kept s) (e : HostEvent) : Keeps (serve e s) := by
  cases e with
  | reset => exact keeps_next (kept_clearEngine h)
  | loadKey K =>
    simp only [serve, hostLoadKey]
    split
    next hK => exact keeps_next (kept_setKbuf_dropSchedule h hK)
    next => exact keeps_refused _
  | loadData M =>
    simp only [serve, hostLoadData]
    split
    next hM => exact keeps_next (kept_setDin h hM)
    next => exact keeps_refused _
  | writeS B => exact keeps_next ((kept_setS B s).mpr h)
  | writeSByte i v => exact keeps_next ((kept_setS _ s).mpr h)
  | writeCmd w => exact keeps_runCommand h w
  | writeId id v => exact keeps_hostWriteId h id v
  | read id i => exact keeps_next ((kept_setReadback _ s).mpr h)
  | readAll id => exact keeps_next ((kept_setReadback _ s).mpr h)

theorem keeps_step (h : kept s) : Keeps (step s) := by
  cases hp : s.pending with
  | nil =>
    rw [step_of_idle hp]
    exact keeps_next h
  | cons e rest =>
    rw [step_of_event hp]
    exact keeps_serve ((kept_setPending rest s).mpr h) e

end

/-! ## States that keep it -/

theorem kept_reset : kept State.reset := by
  rw [kept_iff]
  exact ⟨nofun, Memory.wf_reset, nofun, fun _ => rfl⟩

/-- A state with `SV == 1` that keeps the invariant: the key of Scenario B and its schedule. -/
theorem kept_withSchedule (B : Block) : kept (Tests.withSchedule B) := by
  rw [kept_iff]
  have hkey : keyOperand (Tests.withSchedule B) = Tests.keyB := keyOperand_of_kbuf rfl
  exact ⟨nofun, rfl, fun _ => ⟨rfl, congrArg expand hkey.symm⟩, nofun⟩

/-- Settles O52: each event of a step, and each command among the events, writes registers and buffers only in ways that
keep the invariant. -/
theorem keptByEveryStep : Obligations.KeptByEveryStep := fun _ t h ht => keeps_step h t ht

/-- Settles O51: after reset the buffers are empty, `SV == 0` and `RK` is all zero. -/
theorem keptAtReset : Obligations.KeptAtReset := kept_reset

end Sys2Proof.Safety
end

section
/-! PROOF. What the commands do not read of the flags (R31): `ERR` by none, `SV` by all but `ADDRK`, `ENCBLK` and
`DECBLK`. -/

namespace Sys2Proof.Machine

open Sys2Proof.Claims

/-- No command reads `ERR`: both ends of a command write it, and nothing before them looks at it. -/
theorem exec_with_err (i : Instr) (s : State) (e : ErrorCode) : exec i { s with err := e } = exec i s := by
  cases i with
  | xtime | gmul | sbox | isbox | subb | shrow | mixc | isubb | ishrow | imixc | pad | clr => rfl
  | rcon => simp only [exec, execRcon]; split <;> rfl
  | keyexp => rfl
  | unpad => simp only [exec, execUnpad]; split <;> rfl
  | encblk => simp only [exec, execEncblk]; split <;> rfl
  | decblk => simp only [exec, execDecblk]; split <;> rfl
  | addrk =>
    simp only [exec, execAddrk]
    split
    · rfl
    · split <;> rfl
  | cbcenc => rw [exec_cbcenc, exec_cbcenc]; rfl
  | cbcdec => rw [exec_cbcdec, exec_cbcdec]; rfl

/-- A result with `SV` of its next state left out of account. -/
def forgetSv : Result → Result
  | .next s => .next { s with sv := false }
  | .fault r => .fault r
  | .refused r => .refused r

theorem eq_of_forgetSv_eq {t u : State} (h : forgetSv (.next u) = forgetSv (.next t)) :
    { u with sv := t.sv } = t := by
  have hut : ({ u with sv := false } : State) = { t with sv := false } := Host.Outcome.next.inj h
  calc ({ u with sv := t.sv } : State)
      = { ({ u with sv := false } : State) with sv := t.sv } := rfl
    _ = { ({ t with sv := false } : State) with sv := t.sv } := by rw [hut]
    _ = t := rfl

/-- A command that does not read `SV` gives all else of its next state whatever `SV` was: it leaves `SV` as it finds it
or writes it without looking (`CBCENC` and `CBCDEC` always clear it). -/
theorem forgetSv_exec_with_sv {i : Instr} (hi : readsSv i = false) (s : State) (b : Bool) :
    forgetSv (exec i { s with sv := b }) = forgetSv (exec i s) := by
  cases i with
  | xtime | gmul | sbox | isbox | subb | shrow | mixc | isubb | ishrow | imixc | pad | clr => rfl
  | rcon => simp only [exec, execRcon]; split <;> rfl
  | keyexp => simp only [exec, execKeyexp, apply_ite forgetSv]; rfl
  | unpad => simp only [exec, execUnpad]; split <;> rfl
  | addrk | encblk | decblk => exact absurd hi (by simp [readsSv])
  | cbcenc => rw [exec_cbcenc, exec_cbcenc]; rfl
  | cbcdec => rw [exec_cbcdec, exec_cbcdec]; rfl

/-- Settles O50: `exec_with_err` is its first clause, `forgetSv_exec_with_sv` its second. -/
theorem flagsNotRead : Obligations.FlagsNotRead := by
  refine ⟨exec_with_err, fun i s t u b hi ht hu => eq_of_forgetSv_eq ?_⟩
  rw [← ht, ← hu]
  exact forgetSv_exec_with_sv hi s b

end Sys2Proof.Machine
end

section
/-! PROOF. What the host transactions on `S` do (R69): the block form and the byte form of `HostWriteS`. -/

namespace Sys2Proof.Machine

open Sys2Proof.Claims

/-- A step serves the event presented to it, on the state as it was before. -/
theorem step_present (e : HostEvent) (s : State) : step (present e s) = serve e s := step_of_event rfl

/-- The block form is one whole-register write of `S`. -/
theorem step_present_writeS (B : Block) (s : State) : step (present (.writeS B) s) = .next (s.setS B) :=
  step_present _ s

/-- The byte form is one whole-register write of `S` too, of the old block with byte `i` replaced. -/
theorem step_present_writeSByte (i : Fin 16) (v : Byte) (s : State) :
    step (present (.writeSByte i v) s) = .next (s.setS (s.sReg.set i.val v)) :=
  step_present _ s

/-- Settles O8: both forms are a `setS`, which keeps every other field; the block that the byte form writes differs from
the old one in byte `i` only. -/
theorem hostWriteSEffect : Obligations.HostWriteSEffect := by
  intro s
  refine ⟨fun B => step_present_writeS B s, fun i v => ⟨_, step_present_writeSByte i v s, rfl, ?_, fun j hj => ?_⟩⟩
  · exact Vector.getElem_set_self i.isLt
  · exact Vector.getElem_set_ne i.isLt j.isLt fun hij => hj (Fin.ext hij.symm)

end Sys2Proof.Machine
end

section
/-! PROOF. Which words are commands (R92 to R95). The opcode map and the decoder both come down to one condition on the
four fields of the word; a word that fails it raises `IllegalCommand`. -/

namespace Sys2Proof.Machine

open Sys2Proof.Claims

/-! ## The fields of a command word -/

/-- What R92, R93 and R95 ask of the four fields of a command word. -/
structure FieldsLegal (op rsv a b : Byte) : Prop where
  op_mem : op ∈ opcodes
  rsv_zero : rsv = 0x00
  b_zero : op ≠ 0x11 → b = 0x00
  a_zero : hasOperandA op = false → a = 0x00
  least : op = 0x22 → 1 ≤ a.toNat
  most : op = 0x22 ∨ op = 0x43 → a.toNat ≤ 10

/-- The six opcodes with an operand `a`, as a list (R93). -/
theorem hasOperandA_iff (op : Byte) :
    hasOperandA op = true ↔ op ∈ ([0x10, 0x11, 0x20, 0x21, 0x22, 0x43] : List Byte) := by
  simp [hasOperandA, or_assoc]

/-- Every word is one of format `C32` (R90). -/
theorem exists_eq_word (w : CmdWord) : ∃ op rsv a b, w = word op rsv a b :=
  ⟨opField w, rsvField w, aField w, bField w, (word_of_fields w).symm⟩

theorem word_inj {op rsv a b op' rsv' a' b' : Byte} :
    word op rsv a b = word op' rsv' a' b' ↔ op = op' ∧ rsv = rsv' ∧ a = a' ∧ b = b' := by
  constructor
  · intro h
    exact ⟨by simpa [word] using congrArg opField h, by simpa [word] using congrArg rsvField h,
      by simpa [word] using congrArg aField h, by simpa [word] using congrArg bField h⟩
  · rintro ⟨rfl, rfl, rfl, rfl⟩
    rfl

/-- A mask acts on each field by itself. -/
theorem word_and_word (op rsv a b op' rsv' a' b' : Byte) :
    word op rsv a b &&& word op' rsv' a' b' = word (op &&& op') (rsv &&& rsv') (a &&& a') (b &&& b') := by
  have h1 := BitVec.and_append (x₁ := op ++ rsv ++ a) (y₁ := b) (x₂ := op' ++ rsv' ++ a') (y₂ := b')
  have h2 := BitVec.and_append (x₁ := op ++ rsv) (y₁ := a) (x₂ := op' ++ rsv') (y₂ := a')
  have h3 := BitVec.and_append (x₁ := op) (y₁ := rsv) (x₂ := op') (y₂ := rsv')
  rw [h2, h3] at h1
  exact h1

/-- The reading of operand `a` in the range column of R92. -/
theorem shiftRight_word_mod (op rsv a b : Byte) : (word op rsv a b >>> 8).toNat % 256 = a.toNat := by
  have ha : aField (word op rsv a b) = a := aField_word op rsv a b
  simpa [aField] using congrArg BitVec.toNat ha

/-! ## The opcode map -/

/-- The bits of a field that a row's mask selects: all of a field that must be zero, none of an operand. -/
def fieldMask (operand : Bool) : Byte := if operand then 0x00 else BitVec.allOnes 8

theorem and_fieldMask_eq_zero {operand : Bool} {v : Byte} :
    v &&& fieldMask operand = 0x00 ↔ (operand = false → v = 0x00) := by
  cases operand with
  | true => simp [fieldMask]
  | false => simp only [fieldMask, Bool.false_eq_true, if_false, BitVec.and_allOnes, forall_const]

/-- The row of R92 with opcode `op`, from which of its fields are operands. -/
def rowOfOp (op : Byte) : OpcodeRow where
  pattern := word op 0x00 0x00 0x00
  mask := word (BitVec.allOnes 8) (BitVec.allOnes 8) (fieldMask (hasOperandA op)) (fieldMask (op == 0x11))
  least := if op = 0x22 then 1 else 0
  most := if op = 0x22 ∨ op = 0x43 then 10 else 255

theorem opcodeMap_eq : opcodeMap = opcodes.map rowOfOp := rfl

theorem word_and_mask_iff (op rsv a b op' : Byte) :
    word op rsv a b &&& (rowOfOp op').mask = (rowOfOp op').pattern ↔
      op = op' ∧ rsv = 0x00 ∧ (hasOperandA op' = false → a = 0x00) ∧ (op' ≠ 0x11 → b = 0x00) := by
  simp only [rowOfOp, word_and_word, word_inj, BitVec.and_allOnes, and_fieldMask_eq_zero, beq_eq_false_iff_ne]

theorem range_rowOfOp_iff (op a : Byte) :
    ((rowOfOp op).least ≤ a.toNat ∧ a.toNat ≤ (rowOfOp op).most) ↔
      (op = 0x22 → 1 ≤ a.toNat) ∧ (op = 0x22 ∨ op = 0x43 → a.toNat ≤ 10) := by
  have ha : a.toNat < 256 := a.isLt
  simp only [rowOfOp]
  split_ifs <;> grind

/-- A row of the opcode map takes the words whose fields are legal with its opcode, and no others. -/
theorem isCommand_word_iff (op rsv a b : Byte) : IsCommand (word op rsv a b) ↔ FieldsLegal op rsv a b := by
  simp only [IsCommand, opcodeMap_eq, List.mem_map, exists_exists_and_eq_and, word_and_mask_iff,
    shiftRight_word_mod, range_rowOfOp_iff]
  constructor
  · rintro ⟨_, hop, ⟨rfl, hrsv, ha, hb⟩, hleast, hmost⟩
    exact ⟨hop, hrsv, hb, ha, hleast, hmost⟩
  · rintro ⟨hop, hrsv, hb, ha, hleast, hmost⟩
    exact ⟨op, hop, ⟨rfl, hrsv, ha, hb⟩, hleast, hmost⟩

/-! ## The decoder -/

/-- Each of the twenty opcodes has a command. -/
theorem instrOfOp_isSome_of_mem (a b : Byte) : ∀ op ∈ opcodes, (instrOfOp op a b).isSome := by
  simp [opcodes, instrOfOp]

/-- No other opcode has one (R94). -/
theorem mem_opcodes_of_instrOfOp {op a b : Byte} {i : Instr} (hi : instrOfOp op a b = some i) : op ∈ opcodes := by
  have eq_ofNat {n : Nat} (h : op.toNat = n) : op = BitVec.ofNat 8 n := by simp [← h]
  unfold instrOfOp at hi
  split at hi
  iterate 20 next h => simp [eq_ofNat h, opcodes]
  next => cases hi

/-- The decoder's checks, all passed. -/
theorem decode_word_eq_ok_iff {op rsv a b : Byte} {i : Instr} :
    decode (word op rsv a b) = .ok i ↔ instrOfOp op a b = some i ∧ FieldsLegal op rsv a b := by
  simp only [decode, word, opField_word, rsvField_word, aField_word, bField_word]
  cases hi : instrOfOp op a b with
  | none => simp
  | some j =>
    constructor
    · intro h
      split_ifs at h with hrsv hb ha hrcon hround
      cases h
      exact ⟨rfl, mem_opcodes_of_instrOfOp hi, by tauto, by tauto, by tauto, by grind, by grind⟩
    · rintro ⟨⟨⟩, -, rsv_zero, b_zero, a_zero, hleast, hmost⟩
      dsimp only
      rw [if_neg (not_not.mpr rsv_zero), if_neg fun h => h.2 (b_zero h.1), if_neg fun h => h.2 (a_zero h.1),
        if_neg (by grind), if_neg (by grind)]

theorem decode_word_isOk_iff (op rsv a b : Byte) :
    (∃ i, decode (word op rsv a b) = .ok i) ↔ FieldsLegal op rsv a b := by
  simp only [decode_word_eq_ok_iff, exists_and_right, and_iff_right_iff_imp, ← Option.isSome_iff_exists]
  exact fun h => instrOfOp_isSome_of_mem a b op h.op_mem

/-- The decoder accepts the words of the opcode map, and no others. -/
theorem exists_decode_eq_ok_iff (w : CmdWord) : (∃ i, decode w = .ok i) ↔ IsCommand w := by
  obtain ⟨op, rsv, a, b, rfl⟩ := exists_eq_word w
  rw [decode_word_isOk_iff, isCommand_word_iff]

/-! ## The words that are no command -/

theorem step_issue (w : CmdWord) (s : State) : step (issue w s) = runCommand w s := step_present _ s

theorem step_issue_of_not_isCommand {w : CmdWord} (h : ¬ IsCommand w) (s : State) :
    step (issue w s) = raise .illegalCommand s := by
  rw [step_issue]
  obtain ⟨i, hi, -⟩ | ⟨-, herr⟩ := runCommand_cases w s
  · exact absurd ((exists_decode_eq_ok_iff w).mp ⟨i, hi⟩) h
  · exact herr

theorem step_issue_word_of_not_fieldsLegal {op rsv a b : Byte} (h : ¬ FieldsLegal op rsv a b) (s : State) :
    step (issue (word op rsv a b) s) = raise .illegalCommand s :=
  step_issue_of_not_isCommand (mt (isCommand_word_iff op rsv a b).mp h) s

/-- Of the 256 values of the opcode field, 236 are reserved (R94). -/
theorem reserved_opcodes_length :
    ((List.range 256).filter fun n => !opcodes.contains (BitVec.ofNat 8 n)).length = 236 := by
  decide +kernel

/-- Settles O2: a word is a command exactly when it decodes, and each of the clauses on fields denies one of the
conditions on the fields of a command. -/
theorem everyWordIsCommandOrIllegal : Obligations.EveryWordIsCommandOrIllegal := by
  refine ⟨fun w s h => step_issue_of_not_isCommand h s, fun w h => (exists_decode_eq_ok_iff w).mpr h,
    fun op rsv a b s hop => ?_, reserved_opcodes_length, fun op rsv a b s hrsv => ?_, fun op rsv a b s hop ha => ?_,
    fun op rsv a b s hop hb => ?_, fun a s ha => ?_, fun a s ha => ?_⟩ <;>
    refine step_issue_word_of_not_fieldsLegal (fun h => ?_) s
  · exact hop h.op_mem
  · exact hrsv h.rsv_zero
  · exact ha (h.a_zero (by rwa [← hasOperandA_iff, Bool.not_eq_true] at hop))
  · exact hb (h.b_zero hop)
  · have hleast := h.least rfl
    have hmost := h.most (.inl rfl)
    rcases ha with rfl | ha
    · exact absurd hleast (by decide)
    · omega
  · have hmost := h.most (.inr rfl)
    omega

end Sys2Proof.Machine
end

section
/-! PROOF. The commands of the Galois-field unit, `XTIME` (R113) and `GMUL` (R114), and the loop of `mul` (R112) as the
exclusive-or of its eight terms. -/

namespace Sys2Proof.Machine

open Sys2Proof.Claims

/-! ## The words of the commands with data-byte operands -/

theorem step_issue_word_of_fieldsLegal {op rsv a b : Byte} {i : Instr} (hi : instrOfOp op a b = some i)
    (h : FieldsLegal op rsv a b) (s : State) : step (issue (word op rsv a b) s) = exec i s := by
  rw [step_issue, runCommand_of_ok (decode_word_eq_ok_iff.mpr ⟨hi, h⟩)]

/-- With an opcode whose one operand is a data byte, only `rsv` and `b` are checked. -/
theorem fieldsLegal_unary_iff {op : Byte} (hop : op ∈ ([0x10, 0x20, 0x21] : List Byte)) (rsv a b : Byte) :
    FieldsLegal op rsv a b ↔ rsv = 0x00 ∧ b = 0x00 := by
  constructor
  · intro h
    exact ⟨h.rsv_zero, h.b_zero (by rintro rfl; simp at hop)⟩
  · rintro ⟨rfl, rfl⟩
    simp only [List.mem_cons, List.not_mem_nil, or_false] at hop
    rcases hop with rfl | rfl | rfl <;> constructor <;> simp [opcodes, hasOperandA]

/-- With the opcode of `GMUL` only `rsv` is checked. -/
theorem fieldsLegal_gmul_iff (rsv a b : Byte) : FieldsLegal 0x11 rsv a b ↔ rsv = 0x00 := by
  constructor
  · exact FieldsLegal.rsv_zero
  · rintro rfl
    constructor <;> simp [opcodes, hasOperandA]

/-- A command that completes with `f a` in `RES`, run by its word and by no other word with its opcode. -/
theorem unaryByteCommand_of_exec {i : Byte → Instr} {op : Byte} {f : Byte → Byte}
    (hop : op ∈ ([0x10, 0x20, 0x21] : List Byte)) (hi : ∀ a, instrOfOp op a 0x00 = some (i a))
    (hexec : ∀ a s, exec (i a) s = complete (s.setRes (f a))) : UnaryByteCommand i op f := by
  refine fun a s => ⟨hexec a s, ?_, fun rsv b hbad => ?_⟩
  · rw [step_issue_word_of_fieldsLegal (hi a) ((fieldsLegal_unary_iff hop _ _ _).mpr ⟨rfl, rfl⟩)]
    exact hexec a s
  · refine step_issue_word_of_not_fieldsLegal (fun h => ?_) s
    obtain ⟨hrsv, hb⟩ := (fieldsLegal_unary_iff hop rsv a b).mp h
    tauto

/-- Settles O16: the function of the statement is `xtime`, written out. -/
theorem xtimeCommand : Obligations.XtimeCommand :=
  unaryByteCommand_of_exec (by decide) (fun _ => rfl) fun _ _ => rfl

/-! ## The loop of `mul` -/

/-- What step `i` of `mul` adds to `p` (R112): `a` doubled `i` times where bit `i` of `b` is set. -/
def mulTerm (a b : Byte) (i : Nat) : Byte := if b.getLsbD i then xtime^[i] a else 0x00

/-- The loop from step `i` on, with `a` doubled `i` times so far. -/
theorem mulFrom_iterate_xtime (a b : Byte) (n i : Nat) (p : Byte) :
    mulFrom b n i p (xtime^[i] a) = ((List.range' i n).map (mulTerm a b)).foldl (· ^^^ ·) p := by
  induction n generalizing i p with
  | zero => rfl
  | succ n ih =>
    have hstep : (if b.getLsbD i then p ^^^ xtime^[i] a else p) = p ^^^ mulTerm a b i := by
      unfold mulTerm
      split <;> simp
    rw [mulFrom, hstep, ← Function.iterate_succ_apply' xtime, ih]
    rfl

/-- `mul` as the exclusive-or of its eight terms. -/
theorem mul_eq_foldl (a b : Byte) : mul a b = ((List.range 8).map (mulTerm a b)).foldl (· ^^^ ·) 0x00 :=
  mulFrom_iterate_xtime a b 8 0 0x00

theorem exec_gmul (a b : Byte) (s : State) : exec (.gmul a b) s = complete (s.setRes (mul a b)) := rfl

theorem step_issue_gmul (a b : Byte) (s : State) :
    step (issue (word 0x11 0x00 a b) s) = complete (s.setRes (mul a b)) :=
  step_issue_word_of_fieldsLegal (i := .gmul a b) rfl ((fieldsLegal_gmul_iff _ a b).mpr rfl) s

/-- Settles O17: the byte of the statement is `mul a b` as the exclusive-or of its terms. -/
theorem gmulCommand : Obligations.GmulCommand := by
  intro a b s p
  have hp : mul a b = p := mul_eq_foldl a b
  rw [← hp]
  exact ⟨exec_gmul a b s, step_issue_gmul a b s, fun rsv hrsv =>
    step_issue_word_of_not_fieldsLegal (mt (fieldsLegal_gmul_iff rsv a b).mp hrsv) s⟩

end Sys2Proof.Machine
end

section
/-! PROOF. `mul` as the product of polynomials over GF(2) (R110). Bytes are read as polynomials bit by bit; in the
quotient by the reduction polynomial `xtime` is multiplication by `x`, and `mul` is the sum over the set bits `i` of `b`
of `a` doubled `i` times, so it is multiplication there; degrees below 8 bring the equation back to polynomials. -/

namespace Sys2Proof.Machine

open Sys2Proof.Claims Polynomial

/-! ## Bytes as polynomials -/

theorem coeff_poly (b : Byte) (n : Nat) : (poly b).coeff n = if b.getLsbD n then 1 else 0 := by
  have hterm (i : Nat) : (if b.getLsbD i then X ^ i else (0 : (ZMod 2)[X])).coeff n =
      if n = i then if b.getLsbD n then 1 else 0 else 0 := by
    split_ifs <;> simp_all [coeff_X_pow]
  simp only [poly, finsetSum_coeff, hterm, Finset.sum_ite_eq, Finset.mem_range, ite_eq_left_iff, not_lt]
  intro hn
  rw [BitVec.getLsbD_of_ge b n hn]
  rfl

theorem poly_injective : Function.Injective poly := by
  intro a b hab
  apply BitVec.eq_of_getLsbD_eq
  intro i _
  have hi := congrArg (coeff · i) hab
  simp only [coeff_poly] at hi
  cases ha : a.getLsbD i <;> cases hb : b.getLsbD i <;> simp_all

theorem poly_xor (a b : Byte) : poly (a ^^^ b) = poly a + poly b := by
  ext n
  simp only [coeff_add, coeff_poly, BitVec.getLsbD_xor]
  cases a.getLsbD n <;> cases b.getLsbD n <;> decide

theorem poly_zero : poly 0x00 = 0 := by
  ext n
  simp [coeff_poly]

theorem degree_poly_lt (b : Byte) : (poly b).degree < 8 := by
  rw [show (8 : WithBot ℕ) = ((8 : ℕ) : WithBot ℕ) from rfl, degree_lt_iff_coeff_zero]
  intro n hn
  simp [coeff_poly, BitVec.getLsbD_of_ge b n hn]

theorem monic_reductionPoly : reductionPoly.Monic := by
  unfold reductionPoly
  monicity!

theorem degree_reductionPoly : reductionPoly.degree = 8 := by
  unfold reductionPoly
  compute_degree!

/-- The constant of `xtime` is what the reduction polynomial is below `x^8`. -/
theorem reductionPoly_eq : reductionPoly = X ^ 8 + poly Config.reduce := by
  have h : poly Config.reduce = 1 + X + X ^ 3 + X ^ 4 := by
    simp [poly, Config.reduce, Finset.sum_range_succ]
  rw [h, reductionPoly]
  ring

/-- A shift is multiplication by `x`; the bit that leaves the byte at `x^8` is cancelled. -/
theorem poly_shiftLeft (b : Byte) :
    poly (b <<< 1) = X * poly b + if b.getLsbD 7 then X ^ 8 else 0 := by
  ext n
  cases n with
  | zero => simp [coeff_poly, apply_ite (coeff · 0), coeff_X_pow]
  | succ n =>
    simp only [coeff_add, coeff_X_mul, coeff_poly, BitVec.getLsbD_shiftLeft, apply_ite (coeff · (n + 1)), coeff_X_pow,
      coeff_zero]
    rcases lt_trichotomy n 7 with h | rfl | h
    · simp [h.ne, show n + 1 < 8 by omega]
    · cases b.getLsbD 7 <;> decide
    · simp [BitVec.getLsbD_of_ge b n h, h.ne']

/-- The reduction of `xtime` takes the reduction polynomial off where the shift has reached `x^8` (R111). -/
theorem poly_xtime (b : Byte) :
    poly (xtime b) = X * poly b + if b.getLsbD 7 then reductionPoly else 0 := by
  unfold xtime
  split_ifs
  · rw [poly_xor, poly_shiftLeft, if_pos ‹_›, reductionPoly_eq, add_assoc]
  · rw [poly_shiftLeft, if_neg ‹_›]

/-! ## The quotient by the reduction polynomial -/

/-- A byte as an element of GF(2)[x] modulo the reduction polynomial. -/
noncomputable def residue (b : Byte) : AdjoinRoot reductionPoly := AdjoinRoot.mk reductionPoly (poly b)

@[simp] theorem residue_zero : residue 0x00 = 0 := by
  rw [residue, poly_zero, map_zero]

@[simp] theorem residue_xor (a b : Byte) : residue (a ^^^ b) = residue a + residue b := by
  rw [residue, poly_xor, map_add]
  rfl

theorem residue_xtime (b : Byte) : residue (xtime b) = AdjoinRoot.root reductionPoly * residue b := by
  simp [residue, poly_xtime, apply_ite (AdjoinRoot.mk reductionPoly)]

theorem residue_iterate_xtime (a : Byte) (i : Nat) :
    residue (xtime^[i] a) = AdjoinRoot.root reductionPoly ^ i * residue a := by
  induction i with
  | zero => simp
  | succ i ih => rw [Function.iterate_succ_apply', residue_xtime, ih, pow_succ', mul_assoc]

theorem residue_foldl_xor (L : List Byte) (p : Byte) :
    residue (L.foldl (· ^^^ ·) p) = residue p + (L.map residue).sum := by
  induction L generalizing p with
  | nil => simp
  | cons b L ih => simp [ih, add_assoc]

theorem residue_eq_sum (b : Byte) :
    residue b = ((List.range 8).map fun i => if b.getLsbD i then AdjoinRoot.root reductionPoly ^ i else 0).sum := by
  simp only [residue, poly, map_sum, apply_ite (AdjoinRoot.mk reductionPoly), map_pow, AdjoinRoot.mk_X, map_zero]
  rfl

theorem residue_mulTerm (a b : Byte) (i : Nat) :
    residue (mulTerm a b i) = (if b.getLsbD i then AdjoinRoot.root reductionPoly ^ i else 0) * residue a := by
  unfold mulTerm
  split
  · exact residue_iterate_xtime a i
  · rw [residue_zero, zero_mul]

/-- Modulo the reduction polynomial `mul` is multiplication: its terms are `x^i * a` for the set bits `i` of `b`. -/
theorem residue_mul (a b : Byte) : residue (mul a b) = residue a * residue b := by
  rw [mul_eq_foldl, residue_foldl_xor, mul_comm, residue_eq_sum b, ← List.sum_map_mul_right]
  simp only [residue_mulTerm, residue_zero, zero_add, List.map_map, Function.comp_def]

/-- Both sides have degree below 8, and they agree modulo the reduction polynomial. -/
theorem poly_mul (a b : Byte) : poly (mul a b) = (poly a * poly b) %ₘ reductionPoly := by
  have hdvd : reductionPoly ∣ poly (mul a b) - poly a * poly b :=
    AdjoinRoot.mk_eq_mk.mp ((residue_mul a b).trans (map_mul _ _ _).symm)
  have hdeg : (poly (mul a b)).degree < reductionPoly.degree := by
    rw [degree_reductionPoly]
    exact degree_poly_lt _
  rw [← modByMonic_eq_of_dvd_sub monic_reductionPoly hdvd,
    (modByMonic_eq_self_iff monic_reductionPoly).mpr hdeg]

/-- Settles O19: `poly_mul` is the clause on products; the other two are read off bit by bit. -/
theorem mulIsPolynomialProduct : Obligations.MulIsPolynomialProduct :=
  ⟨poly_injective, poly_xor, poly_mul⟩

end Sys2Proof.Machine
end

section
/-! PROOF. The commands that read a ROM, `SBOX` (R123), `ISBOX` (R124) and `RCON` (R125), the round constants as powers of
`x` (R122), and the properties of the two substitution tables (R126). The tables' contents are constants, so what holds of
them is evaluated entry by entry. -/

namespace Sys2Proof.Machine

open Sys2Proof.Claims

/-! ## `SBOX` and `ISBOX` -/

theorem exec_sbox (a : Byte) (s : State) : exec (.sbox a) s = complete (s.setRes (sboxAt a)) := by
  rw [← memReadByte_sbox s a]
  rfl

theorem exec_isbox (a : Byte) (s : State) : exec (.isbox a) s = complete (s.setRes (isboxAt a)) := by
  rw [← memReadByte_isbox s a]
  rfl

/-- Settles O20: the functions of the statement are `sboxAt` and `isboxAt`, written out. -/
theorem sboxCommands : Obligations.SboxCommands :=
  ⟨unaryByteCommand_of_exec (by decide) (fun _ => rfl) exec_sbox,
    unaryByteCommand_of_exec (by decide) (fun _ => rfl) exec_isbox⟩

/-! ## `RCON` -/

/-- The round constants are `0x01` doubled again and again (R122). -/
theorem rconAt_eq_iterate_xtime {k : Nat} (h1 : 1 ≤ k) (h2 : k ≤ 10) : rconAt k = xtime^[k - 1] 0x01 := by
  interval_cases k <;> decide

theorem exec_rcon {a : Byte} (h1 : 1 ≤ a.toNat) (h2 : a.toNat ≤ 10) (s : State) :
    exec (.rcon a) s = complete (s.setRes (rconAt a.toNat)) := by
  rw [← memReadByte_rcon s a.toNat]
  simp only [exec, execRcon, rconIndex_eq_some h1 h2]

/-- With the opcode of `RCON` the other two fields must be zero and the index in range. -/
theorem fieldsLegal_rcon_iff (rsv a b : Byte) :
    FieldsLegal 0x22 rsv a b ↔ rsv = 0x00 ∧ b = 0x00 ∧ 1 ≤ a.toNat ∧ a.toNat ≤ 10 := by
  constructor
  · intro h
    exact ⟨h.rsv_zero, h.b_zero (by decide), h.least rfl, h.most (.inl rfl)⟩
  · rintro ⟨rfl, rfl, h1, h2⟩
    constructor <;> simp [opcodes, hasOperandA, h1, h2]

/-- Settles O21: the entry read is the power of `x` of the statement, and each rejected word fails one of the conditions
on the fields. -/
theorem rconCommand : Obligations.RconCommand := by
  refine ⟨fun a s h1 h2 => ?_, fun rsv a b s hbad => ?_⟩
  · rw [← rconAt_eq_iterate_xtime h1 h2,
      step_issue_word_of_fieldsLegal rfl ((fieldsLegal_rcon_iff _ _ _).mpr ⟨rfl, rfl, h1, h2⟩)]
    exact ⟨exec_rcon h1 h2 s, exec_rcon h1 h2 s⟩
  · refine step_issue_word_of_not_fieldsLegal (fun h => ?_) s
    obtain ⟨hrsv, hb, h1, h2⟩ := (fieldsLegal_rcon_iff rsv a b).mp h
    rcases hbad with ha | ha | hne | hne
    · omega
    · omega
    · exact hne hrsv
    · exact hne hb

/-! ## The substitution tables -/

@[simp] theorem isboxAt_sboxAt : ∀ a : Byte, isboxAt (sboxAt a) = a := by decide +kernel

@[simp] theorem sboxAt_isboxAt : ∀ a : Byte, sboxAt (isboxAt a) = a := by decide +kernel

/-- Two tables that undo each other are permutations. -/
theorem sboxAt_bijective : Function.Bijective sboxAt :=
  Function.bijective_iff_has_inverse.mpr ⟨isboxAt, isboxAt_sboxAt, sboxAt_isboxAt⟩

theorem sboxAt_ne_self : ∀ a : Byte, sboxAt a ≠ a := by decide +kernel

theorem sboxAt_ne_complement : ∀ a : Byte, sboxAt a ≠ a ^^^ 0xFF := by decide +kernel

/-- Settles O22: the properties are the lemmas above; the spot values are read from the tables. -/
theorem sboxPermutations : Obligations.SboxPermutations :=
  ⟨sboxAt_bijective, fun a => ⟨isboxAt_sboxAt a, sboxAt_isboxAt a, sboxAt_ne_self a, sboxAt_ne_complement a⟩,
    by decide⟩

end Sys2Proof.Machine
end

section
/-! PROOF. The key schedule (R130 to R132). The loop of `expand` only appends, and a word
is made from bytes before it, so in the finished schedule each word is still the one made from that schedule. -/

namespace Sys2Proof.Machine

open Sys2Proof.Claims

/-! ## One word -/

@[simp] theorem newWord_length (W : List Byte) (k : Nat) : (newWord W k).length = 4 := rfl

/-- A word that is there already does not change when bytes are appended. -/
theorem wordOf_append {W : List Byte} {k : Nat} (h : 4 * k + 4 ≤ W.length) (T : List Byte) :
    wordOf (W ++ T) k = wordOf W k := by
  have hbyte (n : Nat) (hn : n < 4 * k + 4) : (W ++ T).getD n 0 = W.getD n 0 :=
    List.getD_append W T 0 n (by omega)
  simp only [wordOf, hbyte _ (show 4 * k < _ by omega), hbyte _ (show 4 * k + 1 < _ by omega),
    hbyte _ (show 4 * k + 2 < _ by omega), hbyte _ (show 4 * k + 3 < _ by omega)]

/-- Word `k` is made from the words before it. -/
theorem newWord_append {W : List Byte} {k : Nat} (hk : 4 ≤ k) (h : 4 * k ≤ W.length) (T : List Byte) :
    newWord (W ++ T) k = newWord W k := by
  have hprev : wordOf (W ++ T) (k - 1) = wordOf W (k - 1) := wordOf_append (by omega) T
  have hback : wordOf (W ++ T) (k - 4) = wordOf W (k - 4) := wordOf_append (by omega) T
  simp only [newWord, scheduleWord, hprev, hback]

/-- The bytes of word `k`, from the bytes before it (R132). -/
theorem getD_newWord (W : List Byte) {k j : Nat} (hk : 4 ≤ k) (hj : j < 4) :
    (newWord W k).getD j 0 = W.getD (4 * k - 16 + j) 0 ^^^
      (if k % 4 = 0 then
        sboxAt (W.getD (4 * k - 4 + (j + 1) % 4) 0) ^^^ (if j = 0 then rconAt (k / 4) else 0x00)
      else W.getD (4 * k - 4 + j) 0) := by
  have hback : 4 * (k - 4) = 4 * k - 16 := by omega
  have hprev : 4 * (k - 1) = 4 * k - 4 := by omega
  by_cases hfirst : k % 4 = 0
  · interval_cases j <;> simp [newWord, scheduleWord, wordOf, addConstant, subword, rotword, hback, hprev, hfirst]
  · interval_cases j <;> simp [newWord, scheduleWord, wordOf, hback, hprev, hfirst]

/-! ## The loop of `expand` -/

theorem prefix_expandFrom (n k : Nat) (W : List Byte) : W <+: expandFrom n k W := by
  induction n generalizing k W with
  | zero => exact List.prefix_rfl
  | succ n ih => exact (List.prefix_append W _).trans (ih (k + 1) (W ++ newWord W k))

theorem expandFrom_length (n k : Nat) (W : List Byte) : (expandFrom n k W).length = W.length + 4 * n := by
  induction n generalizing k W with
  | zero => rfl
  | succ n ih => simp only [expandFrom, ih, List.length_append, newWord_length]; omega

/-- Each word that the loop appends is, in the loop's result, the one made from that result. -/
theorem getD_expandFrom {n k m j : Nat} {W : List Byte} (hk : 4 ≤ k) (hW : W.length = 4 * k) (hkm : k ≤ m)
    (hm : m < k + n) (hj : j < 4) :
    (expandFrom n k W).getD (4 * m + j) 0 = (newWord (expandFrom n k W) m).getD j 0 := by
  induction n generalizing k W with
  | zero => omega
  | succ n ih =>
    have hW' : (W ++ newWord W k).length = 4 * (k + 1) := by
      rw [List.length_append, newWord_length, hW]; omega
    rcases hkm.eq_or_lt with rfl | hlt
    · obtain ⟨T, hT⟩ := prefix_expandFrom n (k + 1) (W ++ newWord W k)
      rw [expandFrom, ← hT, List.getD_append _ _ _ _ (by omega), List.getD_append_right _ _ _ _ (by omega),
        hW, Nat.add_sub_cancel_left, List.append_assoc, newWord_append hk hW.ge]
    · exact ih (by omega) hW' hlt (by omega)

/-! ## `expand` -/

theorem toList_expand (K : Block) : (expand K).toList = expandFrom 40 4 K.toList := by
  have hlen : (expandFrom 40 4 K.toList).length = 176 := by rw [expandFrom_length, Vector.length_toList]
  refine List.ext_getElem (by simp [hlen]) fun i _ hi => ?_
  simp [expand, hi]

/-- The first sixteen bytes are the key. -/
theorem getD_expand_key (K : Block) (i : Fin 16) : (expand K).toList.getD i 0 = K[i] := by
  obtain ⟨T, hT⟩ := prefix_expandFrom 40 4 K.toList
  rw [toList_expand, ← hT, List.getD_append _ _ _ _ (by simp), List.getD_eq_getElem _ _ (by simp)]
  simp

/-- Settles O25: word `k` of the schedule is the one made from the schedule, and `getD_newWord` gives its bytes. -/
theorem expandRecurrence : Obligations.ExpandRecurrence := by
  refine fun K => ⟨getD_expand_key K, fun k j hk hk' hj => ?_⟩
  rw [← getD_newWord _ hk hj, toList_expand]
  exact getD_expandFrom le_rfl (Vector.length_toList) hk (by omega) hj

end Sys2Proof.Machine
end

section
/-! PROOF. The command `KEYEXP` (R133), and the words of the commands without operands (R92, R93). -/

namespace Sys2Proof.Machine

open Sys2Proof.Claims

/-! ## The words of the commands without operands -/

/-- With the opcode of a command without operands the other three fields must be zero. -/
theorem fieldsLegal_noOperand_iff {op : Byte} (hop : op ∈ opcodes) (ha : hasOperandA op = false) (rsv a b : Byte) :
    FieldsLegal op rsv a b ↔ rsv = 0x00 ∧ a = 0x00 ∧ b = 0x00 := by
  have hne {v : Byte} (hv : hasOperandA v = true) : op ≠ v := by rintro rfl; simp [hv] at ha
  constructor
  · intro h
    exact ⟨h.rsv_zero, h.a_zero ha, h.b_zero (hne rfl)⟩
  · rintro ⟨rfl, rfl, rfl⟩
    exact ⟨hop, rfl, fun _ => rfl, fun _ => rfl, fun h => absurd h (hne rfl), fun _ => by decide⟩

/-- A command without operands is run by its word and by no other word with its opcode. -/
theorem noOperandWord_of_instrOfOp {i : Instr} {op : Byte} (hop : op ∈ opcodes) (ha : hasOperandA op = false)
    (hi : instrOfOp op 0x00 0x00 = some i) : NoOperandWord i op := by
  refine fun s => ⟨?_, fun rsv a b hbad => ?_⟩
  · exact step_issue_word_of_fieldsLegal hi ((fieldsLegal_noOperand_iff hop ha _ _ _).mpr ⟨rfl, rfl, rfl⟩) s
  · refine step_issue_word_of_not_fieldsLegal (fun h => ?_) s
    obtain ⟨hrsv, hza, hb⟩ := (fieldsLegal_noOperand_iff hop ha rsv a b).mp h
    tauto

/-! ## `KEYEXP` -/

/-- What a command writes that completes with a new schedule. -/
theorem complete_setSchedule (W : Schedule) (s : State) :
    complete (s.setSchedule W) = .next { s with rk := W, sv := true, err := .ok } := rfl

theorem exec_keyexp {s : State} {K : Block} (hK : s.kbuf = K.toList) :
    exec .keyexp s = complete (s.setSchedule (expand K)) := by
  have hklen : s.klen = Config.keyLen := by rw [State.klen, hK, Vector.length_toList]; rfl
  rw [← keyOperand_of_kbuf hK]
  exact if_pos hklen

theorem exec_keyexp_of_klen_ne {s : State} (h : s.klen ≠ 16) : exec .keyexp s = raise .invalidKeyLength s := if_neg h

/-- Without a legal key there is no schedule (R22). -/
theorem noSchedule_of_klen_ne {s : State} (hs : Safety.kept s) (h : s.klen ≠ 16) :
    s.sv = false ∧ s.rk = zeroSchedule := by
  obtain ⟨-, -, hset, hclear⟩ := (Safety.kept_iff s).mp hs
  have hsv : s.sv = false := by
    by_contra hsv
    obtain ⟨hklen, -⟩ := hset (Bool.eq_true_of_not_eq_false hsv)
    exact h hklen
  exact ⟨hsv, hclear hsv⟩

/-- Settles O24: the two ends of `KEYEXP`, the schedule invariant of R22, and the word with no operand. The reset state
meets the premises of the second clause (`Safety.kept_reset`). -/
theorem keyexpCommand : Obligations.KeyexpCommand := by
  refine ⟨fun K s hK => ?_, fun s h => ⟨exec_keyexp_of_klen_ne h, fun hs => noSchedule_of_klen_ne hs h⟩, ?_⟩
  · exact (exec_keyexp hK).trans (complete_setSchedule _ s)
  · exact noOperandWord_of_instrOfOp (by decide) rfl rfl

end Sys2Proof.Machine
end

section
/-! PROOF. The round steps on the matrix of R62: each byte of each step's result, forward (R140 to R143) and inverse
(R150, R151). A block is its sixteen matrix bytes, so an equation of steps is an equation of these. -/

namespace Sys2Proof.Machine

open Sys2Proof.Claims

/-! ## Blocks as matrices -/

/-- Byte `i` of a block stands in row `i % 4` of column `i / 4`. -/
theorem getElem_eq_matrixByte (B : Block) (i : Nat) (h : i < 16) :
    B[i] = matrixByte B ⟨i % 4, by omega⟩ ⟨i / 4, by omega⟩ := by
  simp only [matrixByte, Nat.mod_add_div]

/-- Byte `r` of the four bytes of column `c`. -/
theorem matrixByte_eq_getElem_column (B : Block) (r c : Fin 4) : matrixByte B r c = B[4 * c.val + r.val] := by
  simp only [matrixByte, Nat.add_comm]

/-- A block is its matrix bytes. -/
theorem block_ext {A B : Block} (h : ∀ r c, matrixByte A r c = matrixByte B r c) : A = B := by
  apply Vector.ext
  intro i hi
  rw [getElem_eq_matrixByte A i hi, getElem_eq_matrixByte B i hi, h]

@[simp] theorem matrixByte_blockOfMatrix (f : (r c : Fin 4) → Byte) (r c : Fin 4) :
    matrixByte (blockOfMatrix f) r c = f r c := by
  have hr : (r.val + 4 * c.val) % 4 = r.val := by omega
  have hc : (r.val + 4 * c.val) / 4 = c.val := by omega
  simp [matrixByte, blockOfMatrix, hr, hc]

@[simp] theorem matrixByte_xorBlock (A B : Block) (r c : Fin 4) :
    matrixByte (xorBlock A B) r c = matrixByte A r c ^^^ matrixByte B r c :=
  xorBlock_getElem A B _ _

theorem xorBlock_assoc (A B C : Block) : xorBlock (xorBlock A B) C = xorBlock A (xorBlock B C) := by
  apply Vector.ext
  intro i hi
  simp [BitVec.xor_assoc]

/-! ## The bytes of the steps' results -/

@[simp] theorem matrixByte_subbytes (B : Block) (r c : Fin 4) :
    matrixByte (subbytes B) r c = sboxAt (matrixByte B r c) := by
  simp [matrixByte, subbytes]

@[simp] theorem matrixByte_invsubbytes (B : Block) (r c : Fin 4) :
    matrixByte (invsubbytes B) r c = isboxAt (matrixByte B r c) := by
  simp [matrixByte, invsubbytes]

@[simp] theorem matrixByte_shiftrows (B : Block) (r c : Fin 4) :
    matrixByte (shiftrows B) r c = matrixByte B r (c + r) := by
  simp [shiftrows]

@[simp] theorem matrixByte_invshiftrows (B : Block) (r c : Fin 4) :
    matrixByte (invshiftrows B) r c = matrixByte B r (c - r) := by
  simp [invshiftrows]

/-- The four bytes of a column of `mixcolumns`, from the four bytes of the old column. -/
theorem matrixByte_mixcolumns (B : Block) (c : Fin 4) :
    let a (r : Fin 4) := matrixByte B r c
    matrixByte (mixcolumns B) 0 c = mul (a 0) 0x02 ^^^ mul (a 1) 0x03 ^^^ a 2 ^^^ a 3
      ∧ matrixByte (mixcolumns B) 1 c = a 0 ^^^ mul (a 1) 0x02 ^^^ mul (a 2) 0x03 ^^^ a 3
      ∧ matrixByte (mixcolumns B) 2 c = a 0 ^^^ a 1 ^^^ mul (a 2) 0x02 ^^^ mul (a 3) 0x03
      ∧ matrixByte (mixcolumns B) 3 c = mul (a 0) 0x03 ^^^ a 1 ^^^ a 2 ^^^ mul (a 3) 0x02 :=
  ⟨matrixByte_blockOfMatrix _ 0 c, matrixByte_blockOfMatrix _ 1 c, matrixByte_blockOfMatrix _ 2 c,
    matrixByte_blockOfMatrix _ 3 c⟩

/-- The four bytes of a column of `invmixcolumns`, from the four bytes of the old column. -/
theorem matrixByte_invmixcolumns (B : Block) (c : Fin 4) :
    let a (r : Fin 4) := matrixByte B r c
    matrixByte (invmixcolumns B) 0 c = mul (a 0) 0x0E ^^^ mul (a 1) 0x0B ^^^ mul (a 2) 0x0D ^^^ mul (a 3) 0x09
      ∧ matrixByte (invmixcolumns B) 1 c = mul (a 0) 0x09 ^^^ mul (a 1) 0x0E ^^^ mul (a 2) 0x0B ^^^ mul (a 3) 0x0D
      ∧ matrixByte (invmixcolumns B) 2 c = mul (a 0) 0x0D ^^^ mul (a 1) 0x09 ^^^ mul (a 2) 0x0E ^^^ mul (a 3) 0x0B
      ∧ matrixByte (invmixcolumns B) 3 c = mul (a 0) 0x0B ^^^ mul (a 1) 0x0D ^^^ mul (a 2) 0x09 ^^^ mul (a 3) 0x0E :=
  ⟨matrixByte_blockOfMatrix _ 0 c, matrixByte_blockOfMatrix _ 1 c, matrixByte_blockOfMatrix _ 2 c,
    matrixByte_blockOfMatrix _ 3 c⟩

theorem addroundkey_getElem (B : Block) (W : Schedule) (n : Fin 11) (i : Fin 16) :
    (addroundkey B W n)[i] = B[i] ^^^ W[16 * n.val + i.val] := by
  simp [addroundkey, roundKey]

/-- Settles O29: the bytes of the lemmas above, at the places where R62 puts them in the block. -/
theorem forwardStepsByByte : Obligations.ForwardStepsByByte := by
  intro B W
  refine ⟨fun i => ?_, matrixByte_shiftrows B, fun c => ?_, addroundkey_getElem B W⟩
  · simp [subbytes, sboxAt]
  · have hmix := matrixByte_mixcolumns B c
    simp only [matrixByte_eq_getElem_column] at hmix
    exact hmix

end Sys2Proof.Machine
end

section
/-! PROOF. The commands that apply a round step to `S`: `SUBB`, `SHROW`, `MIXC` (R144 to R146), `ISUBB`, `ISHROW`,
`IMIXC` (R153 to R155), which no flag hinders, and `ADDRK` (R147), which needs a schedule. -/

namespace Sys2Proof.Machine

open Sys2Proof.Claims

/-! ## The commands without operands -/

/-- A command without operands that completes with `f S` in `S`. -/
theorem stateCommand_of_exec {i : Instr} {op : Byte} {f : Block → Block} (hop : op ∈ opcodes)
    (ha : hasOperandA op = false) (hi : instrOfOp op 0x00 0x00 = some i)
    (hexec : ∀ s, exec i s = complete (s.setS (f s.sReg))) : StateCommand i op f :=
  ⟨hexec, noOperandWord_of_instrOfOp hop ha hi⟩

/-- Settles O27: each of the six is `complete` on `S` with its step applied. -/
theorem stepCommands : Obligations.StepCommands :=
  ⟨stateCommand_of_exec (by decide) rfl rfl fun _ => rfl, stateCommand_of_exec (by decide) rfl rfl fun _ => rfl,
    stateCommand_of_exec (by decide) rfl rfl fun _ => rfl, stateCommand_of_exec (by decide) rfl rfl fun _ => rfl,
    stateCommand_of_exec (by decide) rfl rfl fun _ => rfl, stateCommand_of_exec (by decide) rfl rfl fun _ => rfl⟩

/-! ## `ADDRK` -/

/-- A byte up to 10 is a round number. -/
theorem exists_eq_ofNat_round {a : Byte} (h : a.toNat ≤ 10) : ∃ n : Fin 11, a = BitVec.ofNat 8 n.val :=
  ⟨⟨a.toNat, by omega⟩, by simp⟩

theorem exec_addrk {s : State} (hsv : s.sv = true) (n : Fin 11) :
    exec (.addrk (BitVec.ofNat 8 n.val)) s = complete (s.setS (addroundkey s.sReg s.rk n)) := by
  simp only [exec, execAddrk, roundNumber_eq_some, hsv, if_true]

theorem exec_addrk_of_sv_eq_false {s : State} (hsv : s.sv = false) (n : Fin 11) :
    exec (.addrk (BitVec.ofNat 8 n.val)) s = raise .noSchedule s := by
  simp [exec, execAddrk, roundNumber_eq_some, hsv]

/-- With the opcode of `ADDRK` the other two fields must be zero and the round number in range. -/
theorem fieldsLegal_addrk_iff (rsv a b : Byte) :
    FieldsLegal 0x43 rsv a b ↔ rsv = 0x00 ∧ b = 0x00 ∧ a.toNat ≤ 10 := by
  constructor
  · intro h
    exact ⟨h.rsv_zero, h.b_zero (by decide), h.most (.inr rfl)⟩
  · rintro ⟨rfl, rfl, ha⟩
    constructor <;> simp [opcodes, hasOperandA, ha]

/-- The word of `ADDRK a` runs it. -/
theorem step_issue_addrk {a : Byte} (ha : a.toNat ≤ 10) (s : State) :
    step (issue (word 0x43 0x00 a 0x00) s) = exec (.addrk a) s :=
  step_issue_word_of_fieldsLegal rfl ((fieldsLegal_addrk_iff _ _ _).mpr ⟨rfl, rfl, ha⟩) s

/-- Settles O28: `ADDRK a` with and without a schedule, by its word too; each rejected word fails one of the conditions
on the fields. -/
theorem addrkCommand : Obligations.AddrkCommand := by
  refine ⟨fun n s hsv => ?_, fun a s ha hsv => ?_, fun rsv a b s hbad => ?_⟩
  · have hn : (BitVec.ofNat 8 n.val).toNat ≤ 10 := by rw [BitVec.toNat_ofNat]; omega
    exact ⟨_, exec_addrk hsv n, (step_issue_addrk hn s).trans (exec_addrk hsv n), rfl,
      addroundkey_getElem s.sReg s.rk n⟩
  · rw [step_issue_addrk ha]
    obtain ⟨n, rfl⟩ := exists_eq_ofNat_round ha
    exact ⟨exec_addrk_of_sv_eq_false hsv n, exec_addrk_of_sv_eq_false hsv n⟩
  · refine step_issue_word_of_not_fieldsLegal (fun h => ?_) s
    obtain ⟨hrsv, hb, ha⟩ := (fieldsLegal_addrk_iff rsv a b).mp h
    rcases hbad with hne | hne | hne
    · omega
    · exact hne hrsv
    · exact hne hb

end Sys2Proof.Machine
end

section
/-! PROOF. The laws of the round steps (R148). The two column steps multiply each column by a circulant matrix of byte
coefficients (R142, R152). Read in the quotient of R110 (`residue`), the product of two such matrices is the circulant
matrix of one row of byte coefficients again, which is evaluated: it is the identity for the rows of R142 and R152. -/

namespace Sys2Proof.Machine

open Sys2Proof.Claims

/-! ## Bytes in the quotient -/

theorem residue_injective : Function.Injective residue := by
  intro a b hab
  apply poly_injective
  have hdeg (v : Byte) : (poly v).degree < reductionPoly.degree := by
    rw [degree_reductionPoly]
    exact degree_poly_lt v
  rw [← (Polynomial.modByMonic_eq_self_iff monic_reductionPoly).mpr (hdeg a),
    ← (Polynomial.modByMonic_eq_self_iff monic_reductionPoly).mpr (hdeg b)]
  exact Polynomial.modByMonic_eq_of_dvd_sub monic_reductionPoly (AdjoinRoot.mk_eq_mk.mp hab)

/-! The byte 0x01 is `1#8` here, as simp writes it. -/

@[simp] theorem residue_one : residue 1#8 = 1 := by
  have h : poly 1#8 = 1 := by simp [poly]
  rw [residue, h, map_one]

@[simp] theorem mul_one_right (a : Byte) : mul a 1#8 = a :=
  residue_injective (by rw [residue_mul, residue_one, mul_one])

theorem mul_xor_right (a b c : Byte) : mul a (b ^^^ c) = mul a b ^^^ mul a c :=
  residue_injective (by simp only [residue_mul, residue_xor, mul_add])

/-! ## Circulant column steps -/

/-- Four bytes combined with four coefficients. -/
def combine (a m : Fin 4 → Byte) : Byte := mul (a 0) (m 0) ^^^ mul (a 1) (m 1) ^^^ mul (a 2) (m 2) ^^^ mul (a 3) (m 3)

/-- The column step whose first row of coefficients is `m`; each following row is the one above rotated right by one. -/
def columnStep (m : Fin 4 → Byte) (B : Block) : Block :=
  blockOfMatrix fun r c => combine (fun k => matrixByte B k c) fun k => m (k - r)

/-- The first row of the product of two circulant matrices, from theirs. -/
def circulantProduct (m m' : Fin 4 → Byte) (k : Fin 4) : Byte := combine (fun j => m (k - j)) m'

/-- The coefficients {02, 03, 01, 01} of R142. -/
def mixRow : Fin 4 → Byte := ![0x02, 0x03, 0x01, 0x01]

/-- The coefficients {0e, 0b, 0d, 09} of R152. -/
def invmixRow : Fin 4 → Byte := ![0x0E, 0x0B, 0x0D, 0x09]

theorem mixcolumns_eq_columnStep (B : Block) : mixcolumns B = columnStep mixRow B := by
  refine block_ext fun r c => ?_
  obtain ⟨h0, h1, h2, h3⟩ := matrixByte_mixcolumns B c
  fin_cases r <;> simp [h0, h1, h2, h3, columnStep, combine, mixRow]

theorem invmixcolumns_eq_columnStep (B : Block) : invmixcolumns B = columnStep invmixRow B := by
  refine block_ext fun r c => ?_
  obtain ⟨h0, h1, h2, h3⟩ := matrixByte_invmixcolumns B c
  fin_cases r <;> simp [h0, h1, h2, h3, columnStep, combine, invmixRow]

theorem residue_combine (a m : Fin 4 → Byte) : residue (combine a m) = ∑ k, residue (a k) * residue (m k) := by
  simp only [combine, residue_xor, residue_mul, Fin.sum_univ_four]

/-- Column `c` of a block in the quotient. -/
noncomputable def residueColumn (B : Block) (c r : Fin 4) : AdjoinRoot reductionPoly := residue (matrixByte B r c)

theorem block_ext_residueColumn {A B : Block} (h : ∀ c, residueColumn A c = residueColumn B c) : A = B :=
  block_ext fun r c => residue_injective (congrFun (h c) r)

/-- In the quotient a column step multiplies each column by a circulant matrix. -/
theorem residueColumn_columnStep (m : Fin 4 → Byte) (B : Block) (c : Fin 4) :
    residueColumn (columnStep m B) c = Matrix.vecMul (residueColumn B c) (Matrix.circulant (residue ∘ m)) := by
  funext r
  rw [residueColumn, columnStep, matrixByte_blockOfMatrix, residue_combine]
  rfl

theorem circulant_mul_circulant (m m' : Fin 4 → Byte) :
    Matrix.circulant (residue ∘ m) * Matrix.circulant (residue ∘ m') =
      Matrix.circulant (residue ∘ circulantProduct m m') := by
  rw [Matrix.circulant_mul]
  congr 1
  funext k
  rw [Function.comp_apply, circulantProduct, residue_combine]
  rfl

/-- Two column steps are undone by one another if the first row of the product of their matrices is {01, 00, 00, 00}. -/
theorem columnStep_columnStep_of_product {m m' : Fin 4 → Byte}
    (h : circulantProduct m m' = Pi.single 0 1#8) (B : Block) : columnStep m' (columnStep m B) = B := by
  have hone : residue ∘ circulantProduct m m' = Pi.single 0 1 := by
    funext k
    rw [Function.comp_apply, h, Pi.apply_single (fun _ => residue) fun _ => residue_zero, residue_one]
  refine block_ext_residueColumn fun c => ?_
  rw [residueColumn_columnStep, residueColumn_columnStep, Matrix.vecMul_vecMul, circulant_mul_circulant, hone,
    Matrix.circulant_single_one, Matrix.vecMul_one]

theorem combine_xor (a b m : Fin 4 → Byte) : combine (fun k => a k ^^^ b k) m = combine a m ^^^ combine b m :=
  residue_injective (by simp only [residue_xor, residue_combine, add_mul, Finset.sum_add_distrib])

theorem columnStep_xorBlock (m : Fin 4 → Byte) (A B : Block) :
    columnStep m (xorBlock A B) = xorBlock (columnStep m A) (columnStep m B) := by
  refine block_ext fun r c => ?_
  simp only [columnStep, matrixByte_blockOfMatrix, matrixByte_xorBlock, combine_xor]

/-! ## The steps and their inverses -/

@[simp] theorem invsubbytes_subbytes (B : Block) : invsubbytes (subbytes B) = B := block_ext fun r c => by simp

@[simp] theorem subbytes_invsubbytes (B : Block) : subbytes (invsubbytes B) = B := block_ext fun r c => by simp

@[simp] theorem invshiftrows_shiftrows (B : Block) : invshiftrows (shiftrows B) = B := block_ext fun r c => by simp

@[simp] theorem shiftrows_invshiftrows (B : Block) : shiftrows (invshiftrows B) = B := block_ext fun r c => by simp

@[simp] theorem invmixcolumns_mixcolumns (B : Block) : invmixcolumns (mixcolumns B) = B := by
  rw [mixcolumns_eq_columnStep, invmixcolumns_eq_columnStep]
  exact columnStep_columnStep_of_product (by decide) B

@[simp] theorem mixcolumns_invmixcolumns (B : Block) : mixcolumns (invmixcolumns B) = B := by
  rw [mixcolumns_eq_columnStep, invmixcolumns_eq_columnStep]
  exact columnStep_columnStep_of_product (by decide) B

@[simp] theorem addroundkey_addroundkey (B : Block) (W : Schedule) (n : Fin 11) :
    addroundkey (addroundkey B W n) W n = B :=
  xorBlock_xorBlock B _

/-! ## The laws -/

theorem shiftrows_subbytes (B : Block) : shiftrows (subbytes B) = subbytes (shiftrows B) :=
  block_ext fun r c => by simp

theorem shiftrows_xorBlock (A B : Block) : shiftrows (xorBlock A B) = xorBlock (shiftrows A) (shiftrows B) :=
  block_ext fun r c => by simp

theorem mixcolumns_xorBlock (A B : Block) : mixcolumns (xorBlock A B) = xorBlock (mixcolumns A) (mixcolumns B) := by
  simp only [mixcolumns_eq_columnStep, columnStep_xorBlock]

/-- `SBOX[0x00]` is not 0x00, so `subbytes` does not even take the zero block to itself. -/
theorem subbytes_xorBlock_zeroBlock :
    subbytes (xorBlock zeroBlock zeroBlock) ≠ xorBlock (subbytes zeroBlock) (subbytes zeroBlock) := by
  decide

/-- The coefficients of each row of R142 add up to 0x01. -/
theorem mixcolumns_eq_self {B : Block} (h : ∀ r r' c : Fin 4, matrixByte B r c = matrixByte B r' c) :
    mixcolumns B = B := by
  have hsum (a : Byte) (r : Fin 4) : combine (fun _ => a) (fun k => mixRow (k - r)) = a := by
    have hrow : mixRow (0 - r) ^^^ mixRow (1 - r) ^^^ mixRow (2 - r) ^^^ mixRow (3 - r) = 1#8 := by
      revert r; decide
    rw [combine, ← mul_xor_right, ← mul_xor_right, ← mul_xor_right, hrow, mul_one_right]
  rw [mixcolumns_eq_columnStep]
  refine block_ext fun r c => ?_
  simp only [columnStep, matrixByte_blockOfMatrix, h _ r c, hsum]

/-- Settles O32: each step is undone on both sides by its inverse, and the laws are the lemmas above. -/
theorem stepLaws : Obligations.StepLaws :=
  ⟨Function.bijective_iff_has_inverse.mpr ⟨invsubbytes, invsubbytes_subbytes, subbytes_invsubbytes⟩,
    Function.bijective_iff_has_inverse.mpr ⟨invshiftrows, invshiftrows_shiftrows, shiftrows_invshiftrows⟩,
    Function.bijective_iff_has_inverse.mpr ⟨invmixcolumns, invmixcolumns_mixcolumns, mixcolumns_invmixcolumns⟩,
    fun W n => Function.Involutive.bijective fun B => addroundkey_addroundkey B W n,
    shiftrows_subbytes, shiftrows_xorBlock, mixcolumns_xorBlock, fun A B W n => xorBlock_assoc A B (roundKey W n),
    ⟨zeroBlock, zeroBlock, subbytes_xorBlock_zeroBlock⟩, fun _ => mixcolumns_eq_self⟩

end Sys2Proof.Machine
end

section
/-! PROOF. The inverse round steps byte by byte (R150 to R152) and their laws (R156), from the matrix bytes of the steps
and the lemmas that each step and its inverse undo each other. -/

namespace Sys2Proof.Machine

/-- The column `(c - r) mod 4` of R151 as its pseudocode writes it, so that no natural goes negative. -/
theorem val_column_sub_row (r c : Fin 4) : (c - r).val = (c.val + 4 - r.val) % 4 := by
  rw [Fin.val_sub]
  congr 1
  omega

theorem invshiftrows_getElem (B : Block) (r c : Fin 4) :
    (invshiftrows B)[r.val + 4 * c.val] = B[r.val + 4 * ((c.val + 4 - r.val) % 4)] := by
  have h := matrixByte_invshiftrows B r c
  simp only [matrixByte, val_column_sub_row] at h
  exact h

/-- Settles O30: the matrix bytes of the steps' results, at the places where R62 puts them in the block. -/
theorem inverseStepsByByte : Obligations.InverseStepsByByte := by
  intro B
  refine ⟨fun i => ?_, invshiftrows_getElem B, fun c => ?_⟩
  · simp [invsubbytes, isboxAt]
  · have hmix := matrixByte_invmixcolumns B c
    simp only [matrixByte_eq_getElem_column] at hmix
    exact hmix

/-- The table is read byte by byte, so it does not matter where in its row a byte stands. -/
theorem invsubbytes_invshiftrows (B : Block) : invsubbytes (invshiftrows B) = invshiftrows (invsubbytes B) :=
  block_ext fun r c => by
    simp only [matrixByte_invsubbytes, matrixByte_invshiftrows]

/-- Settles O31: each step and its inverse undo each other, and `invsubbytes_invshiftrows` is the last clause. -/
theorem stepsAreUndone : Obligations.StepsAreUndone := fun B W n =>
  ⟨invsubbytes_subbytes B, subbytes_invsubbytes B, invshiftrows_shiftrows B, shiftrows_invshiftrows B,
    invmixcolumns_mixcolumns B, mixcolumns_invmixcolumns B, addroundkey_addroundkey B W n, invsubbytes_invshiftrows B⟩

end Sys2Proof.Machine
end

section
/-! PROOF. The block transform (45_block_transform.md). `inverse` undoes the steps of `forward` one by one (R164);
`ENCBLK` and `DECBLK` complete with the two transforms (R162, R163); each step command puts its own step's result into
`S`, so the sequences of R165 put there the composition of their steps, which is the transform. -/

namespace Sys2Proof.Machine

open Sys2Proof.Claims

/-! ## The transforms undo each other -/

@[simp] theorem inverseRound_forwardRound (W : Schedule) (X : Block) (n : Fin 11) :
    inverseRound W (forwardRound W X n) n = X := by
  simp [inverseRound, forwardRound]

@[simp] theorem forwardRound_inverseRound (W : Schedule) (X : Block) (n : Fin 11) :
    forwardRound W (inverseRound W X n) n = X := by
  simp [inverseRound, forwardRound]

theorem inverse_forward (X : Block) (W : Schedule) : inverse (forward X W) W = X := by
  simp [inverse, forward]

theorem forward_inverse (X : Block) (W : Schedule) : forward (inverse X W) W = X := by
  simp [inverse, forward]

/-- Settles O34: `inverse` takes off the outer steps and then round by round what `forward` put on, and the other way
round. -/
theorem blockRoundTrip : Obligations.BlockRoundTrip := fun W =>
  ⟨fun X => ⟨inverse_forward X W, forward_inverse X W⟩,
    Function.bijective_iff_has_inverse.mpr
      ⟨fun X => inverse X W, fun X => inverse_forward X W, fun X => forward_inverse X W⟩⟩

/-! ## `ENCBLK` and `DECBLK` -/

theorem exec_encblk {s : State} (hsv : s.sv = true) :
    exec .encblk s = complete (s.setS (forward s.sReg s.rk)) := if_pos hsv

theorem exec_decblk {s : State} (hsv : s.sv = true) :
    exec .decblk s = complete (s.setS (inverse s.sReg s.rk)) := if_pos hsv

/-- A command without operands that with a schedule completes with `f S RK` in `S`. -/
theorem scheduleCommand_of_exec {i : Instr} {op : Byte} {f : Block → Schedule → Block} (hop : op ∈ opcodes)
    (ha : hasOperandA op = false) (hi : instrOfOp op 0x00 0x00 = some i)
    (hexec : ∀ s, exec i s = if s.sv then complete (s.setS (f s.sReg s.rk)) else raise .noSchedule s) :
    ScheduleCommand i op f := by
  refine ⟨fun s hsv => ?_, fun s hsv => ?_, noOperandWord_of_instrOfOp hop ha hi⟩
  · exact (hexec s).trans (if_pos hsv)
  · exact (hexec s).trans (if_neg (by simp [hsv]))

/-- Settles O33: each of the two tests `SV` and completes with its transform. -/
theorem blockCommands : Obligations.BlockCommands :=
  ⟨scheduleCommand_of_exec (by decide) rfl rfl fun _ => rfl, scheduleCommand_of_exec (by decide) rfl rfl fun _ => rfl⟩

/-! ## The step commands one after another -/

/-- The block that a step command makes of `X` under the schedule `W`; `none` for the commands that are no round step
(and for `ADDRK` with no round number). -/
def roundStep (W : Schedule) (X : Block) : Instr → Option Block
  | .subb => some (subbytes X)
  | .shrow => some (shiftrows X)
  | .mixc => some (mixcolumns X)
  | .addrk a => (roundNumber a).map (addroundkey X W)
  | .isubb => some (invsubbytes X)
  | .ishrow => some (invshiftrows X)
  | .imixc => some (invmixcolumns X)
  | _ => none

theorem toNat_le_of_roundStep_addrk {W : Schedule} {X Y : Block} {a : Byte}
    (h : roundStep W X (.addrk a) = some Y) : a.toNat ≤ 10 := by
  by_contra ha
  simp [roundStep, roundNumber_eq_none (not_le.mp ha)] at h

/-- With a schedule a step command completes with its block in `S` (R144 to R147, R153 to R155). -/
theorem exec_of_roundStep {i : Instr} {s : State} {Y : Block} (hsv : s.sv = true)
    (h : roundStep s.rk s.sReg i = some Y) : exec i s = complete (s.setS Y) := by
  cases i with
  | subb | shrow | mixc | isubb | ishrow | imixc => rw [← Option.some.inj h]; rfl
  | addrk a =>
    obtain ⟨n, rfl⟩ := exists_eq_ofNat_round (toNat_le_of_roundStep_addrk h)
    have hY : addroundkey s.sReg s.rk n = Y := by simpa [roundStep, roundNumber_eq_some] using h
    rw [← hY]
    exact exec_addrk hsv n
  | _ => exact absurd h (by simp [roundStep])

theorem decode_encode_of_roundStep {W : Schedule} {X Y : Block} {i : Instr} (h : roundStep W X i = some Y) :
    decode (encode i) = .ok i := by
  cases i with
  | subb | shrow | mixc | isubb | ishrow | imixc => rfl
  | addrk a =>
    have ha : a.toNat ≤ 10 := toNat_le_of_roundStep_addrk h
    exact decode_word_eq_ok_iff.mpr ⟨rfl, (fieldsLegal_addrk_iff _ _ _).mpr ⟨rfl, rfl, ha⟩⟩
  | _ => exact absurd h (by simp [roundStep])

/-- The next step of the machine executes a step command from its word. -/
theorem step_of_roundStep {i : Instr} {s : State} {Y : Block} (hsv : s.sv = true)
    (h : roundStep s.rk s.sReg i = some Y) (es : List HostEvent) :
    step (s.setPending (.writeCmd (encode i) :: es)) = complete ((s.setPending es).setS Y) :=
  calc step (s.setPending (.writeCmd (encode i) :: es))
      = runCommand (encode i) (s.setPending es) := step_of_event (e := .writeCmd _) rfl
    _ = exec i (s.setPending es) := runCommand_of_ok (decode_encode_of_roundStep h) _
    _ = complete ((s.setPending es).setS Y) := exec_of_roundStep hsv h

theorem run_succ_of_step {s t : State} (h : step s = .next t) (k : Nat) :
    Sys2Proof.core.run (k + 1) s = Sys2Proof.core.run k t := by
  have hcore : Sys2Proof.core.step s = .next t := h
  simp only [Host.Core.run, hcore]

/-- Step commands issued one after another leave the composition of their steps in `S` and 0 in `ERR`. -/
theorem run_issued_roundSteps {i : Instr} {is : List Instr} {s : State} {Y : Block} (hsv : s.sv = true)
    (h : (i :: is).foldlM (roundStep s.rk) s.sReg = some Y) (rest : List HostEvent) :
    Sys2Proof.core.run (i :: is).length (s.setPending (issued (i :: is) ++ rest))
      = complete ((s.setPending rest).setS Y) := by
  induction is generalizing i s with
  | nil =>
    obtain ⟨X, hX, hY⟩ := Option.bind_eq_some_iff.mp h
    cases hY
    exact run_succ_of_step (step_of_roundStep hsv hX rest) 0
  | cons j js ih =>
    obtain ⟨X, hX, hY⟩ := Option.bind_eq_some_iff.mp h
    exact (run_succ_of_step (step_of_roundStep hsv hX _) _).trans (ih (s := (s.setS X).setErr .ok) hsv hY)

/-- The steps of R165's first sequence are those of `forward` (R160), in its order. -/
theorem foldlM_roundStep_forwardSequence (W : Schedule) (X : Block) :
    forwardSequence.foldlM (roundStep W) X = some (forward X W) := rfl

/-- The steps of R165's second sequence are those of `inverse` (R161), in its order. -/
theorem foldlM_roundStep_inverseSequence (W : Schedule) (X : Block) :
    inverseSequence.foldlM (roundStep W) X = some (inverse X W) := rfl

/-- Settles O35: the sequence and the single command complete with the same block in `S`. The premise is met by
`Tests.withSchedule`. -/
theorem blockCommandIsStepSequence : Obligations.BlockCommandIsStepSequence := fun s rest hsv =>
  ⟨⟨_, run_issued_roundSteps hsv (foldlM_roundStep_forwardSequence s.rk s.sReg) rest,
      exec_encblk (s := s.setPending rest) hsv⟩,
    ⟨_, run_issued_roundSteps hsv (foldlM_roundStep_inverseSequence s.rk s.sReg) rest,
      exec_decblk (s := s.setPending rest) hsv⟩⟩

end Sys2Proof.Machine
end

section
/-! PROOF. The padder and unpadder (46_padding.md): what the checks of `unpad` amount to (R171), how `PAD` and `UNPAD`
end (R172, R173), and the laws of `pad` and `unpad` (R174). -/

namespace Sys2Proof.Machine

open Sys2Proof.Claims

/-! ## The checks of `unpad` -/

@[simp] theorem ofNat_lastByte (P : List Byte) : BitVec.ofNat 8 (lastByte P) = P.getLastD 0 := by simp [lastByte]

/-- The bytes of R171's last check, counted from the end as `goodPadding` counts them. -/
theorem forall_mem_drop_iff {P : List Byte} {n : Nat} (hn : n ≤ P.length) (v : Byte) :
    (∀ x ∈ P.drop (P.length - n), x = v) ↔ ∀ j ∈ List.range' 1 n, P.getD (P.length - j) 0 = v := by
  constructor
  · intro h j hj
    obtain ⟨hj1, hjn⟩ := List.mem_range'_1.mp hj
    have hlt : P.length - j < P.length := by omega
    rw [List.getD_eq_getElem _ _ hlt]
    exact h _ (List.mem_drop_iff_getElem.mpr ⟨n - j, by omega, by congr 1; omega⟩)
  · intro h x hx
    obtain ⟨i, hi, rfl⟩ := List.mem_drop_iff_getElem.mp hx
    have hv := h (n - i) (List.mem_range'_1.mpr (by omega))
    rwa [show P.length - (n - i) = P.length - n + i by omega, List.getD_eq_getElem _ _ (by omega)] at hv

/-- With a block or more to look at, `goodPadding` is what `unpad` checks. -/
theorem goodPadding_iff {P : List Byte} (hP : 16 ≤ P.length) :
    goodPadding P ↔ ¬ (lastByte P < 1 ∨ 16 < lastByte P)
      ∧ (P.drop (P.length - lastByte P)).all (· == BitVec.ofNat 8 (lastByte P)) = true := by
  have hrange : ¬ (lastByte P < 1 ∨ 16 < lastByte P) ↔ 1 ≤ lastByte P ∧ lastByte P ≤ 16 := by omega
  rw [goodPadding, ← lastByte, hrange, and_assoc]
  refine and_congr_right fun _ => and_congr_right fun hle => ?_
  rw [← forall_mem_drop_iff (hle.trans hP)]
  simp

/-- Of whole blocks `unpad` drops a good padding and rejects all else. -/
theorem unpad_of_whole_blocks {P : List Byte} (h0 : P.length ≠ 0) (hmod : P.length % 16 = 0) :
    (goodPadding P ∧ unpad P = .ok (P.take (P.length - lastByte P)))
      ∨ (¬ goodPadding P ∧ unpad P = .error .invalidPadding) := by
  rw [goodPadding_iff (by omega), unpad, if_neg (by omega)]
  dsimp only
  split_ifs with hrange hall
  · exact .inr ⟨fun h => h.1 hrange, rfl⟩
  · exact .inl ⟨⟨hrange, hall⟩, rfl⟩
  · exact .inr ⟨fun h => hall h.2, rfl⟩

theorem unpad_of_goodPadding {P : List Byte} (h0 : P.length ≠ 0) (hmod : P.length % 16 = 0) (h : goodPadding P) :
    unpad P = .ok (P.take (P.length - lastByte P)) :=
  ((unpad_of_whole_blocks h0 hmod).resolve_right fun hbad => hbad.1 h).2

theorem unpad_of_not_goodPadding {P : List Byte} (h0 : P.length ≠ 0) (hmod : P.length % 16 = 0)
    (h : ¬ goodPadding P) : unpad P = .error .invalidPadding :=
  ((unpad_of_whole_blocks h0 hmod).resolve_left fun hgood => h hgood.1).2

theorem unpad_of_bad_length {P : List Byte} (h : P.length = 0 ∨ P.length % 16 ≠ 0) :
    unpad P = .error .invalidCiphertextLength := if_pos h

/-! ## `PAD` and `UNPAD` -/

theorem exec_pad (s : State) : exec .pad s = complete (s.setDout (pad s.din)) := rfl

theorem exec_unpad_of_ok {s : State} {D : List Byte} (h : unpad s.din = .ok D) :
    exec .unpad s = complete (s.setDout D) := by
  simp [exec, execUnpad, h]

theorem exec_unpad_of_error {s : State} {e : ErrorCode} (h : unpad s.din = .error e) :
    exec .unpad s = raise e (s.setDout []) := by
  simp [exec, execUnpad, h]

/-- Settles O36: `exec_pad` with R170's definition of `pad`, the length of its result, and the word with no operand. -/
theorem padCommand : Obligations.PadCommand := by
  refine ⟨fun s => ⟨exec_pad s, ?_⟩, noOperandWord_of_instrOfOp (by decide) rfl rfl⟩
  rintro t ⟨⟩
  exact pad_length s.din

/-- Settles O37: the three outcomes of `unpad`, each carried to the end of the command, and the word with no operand. -/
theorem unpadCommand : Obligations.UnpadCommand := by
  refine ⟨fun s h0 hmod h => ?_, fun s h => ?_, fun s h0 hmod h => ?_,
    noOperandWord_of_instrOfOp (by decide) rfl rfl⟩
  · exact exec_unpad_of_ok (unpad_of_goodPadding h0 hmod h)
  · exact exec_unpad_of_error (unpad_of_bad_length h)
  · exact exec_unpad_of_error (unpad_of_not_goodPadding h0 hmod h)

/-! ## The laws -/

theorem lastByte_append_replicate (Q : List Byte) {n : Nat} (h1 : 1 ≤ n) (h16 : n ≤ 16) :
    lastByte (Q ++ List.replicate n (BitVec.ofNat 8 n)) = n := by
  obtain ⟨k, rfl⟩ := Nat.exists_eq_add_of_le' h1
  rw [lastByte, List.replicate_succ', ← List.append_assoc, List.getLastD_concat, BitVec.toNat_ofNat]
  omega

/-- Where `unpad` succeeds, it splits off `n` copies of `n` from whole blocks. -/
theorem unpad_eq_ok_iff {P D : List Byte} :
    unpad P = .ok D ↔
      P.length % 16 = 0 ∧ ∃ n, 1 ≤ n ∧ n ≤ 16 ∧ P = D ++ List.replicate n (BitVec.ofNat 8 n) := by
  constructor
  · intro h
    simp only [unpad] at h
    split_ifs at h with hlen hrange hall
    cases h
    refine ⟨by omega, lastByte P, by omega, by omega, ?_⟩
    have hdrop : P.drop (P.length - lastByte P)
        = List.replicate (lastByte P) (BitVec.ofNat 8 (lastByte P)) :=
      List.eq_replicate_iff.mpr ⟨by rw [List.length_drop]; omega, by simpa using hall⟩
    rw [← hdrop, List.take_append_drop]
  · rintro ⟨hmod, n, h1, h16, rfl⟩
    have hlen : (D ++ List.replicate n (BitVec.ofNat 8 n)).length = D.length + n := by simp
    rw [unpad, lastByte_append_replicate D h1 h16, if_neg (by omega)]
    dsimp only
    rw [if_neg (by omega), hlen, Nat.add_sub_cancel]
    simp

theorem unpad_pad (D : List Byte) : unpad (pad D) = .ok D := by
  refine unpad_eq_ok_iff.mpr ⟨?_, padCount D.length, ?_, ?_, rfl⟩
  · rw [pad_length, padlen]; omega
  · rw [padCount]; omega
  · rw [padCount]; omega

/-- The length of a good padding is the one that `pad` would have chosen. -/
theorem pad_of_unpad {P D : List Byte} (h : unpad P = .ok D) : pad D = P := by
  obtain ⟨hmod, n, h1, h16, rfl⟩ := unpad_eq_ok_iff.mp h
  have hn : padCount D.length = n := by
    rw [List.length_append, List.length_replicate] at hmod
    rw [padCount]; omega
  rw [pad, hn]

theorem exists_unpad_eq_ok_iff (P : List Byte) :
    (∃ D, unpad P = .ok D) ↔ P.length ≠ 0 ∧ P.length % 16 = 0
      ∧ ∃ n : Nat, 1 ≤ n ∧ n ≤ 16 ∧ ∃ Q, P = Q ++ List.replicate n (BitVec.ofNat 8 n) := by
  simp only [unpad_eq_ok_iff]
  constructor
  · rintro ⟨D, hmod, n, h1, h16, hP⟩
    have hlen : P.length = D.length + n := by simp [hP]
    exact ⟨by omega, hmod, n, h1, h16, D, hP⟩
  · rintro ⟨-, hmod, n, h1, h16, D, hP⟩
    exact ⟨D, hmod, n, h1, h16, hP⟩

/-- Settles O38: the lengths come down to `padlen`, and the rest to `unpad_eq_ok_iff`. -/
theorem paddingLaws : Obligations.PaddingLaws := by
  refine ⟨fun D => ?_, fun P D => pad_of_unpad, exists_unpad_eq_ok_iff⟩
  have hlen : (pad D).length = 16 * (D.length / 16 + 1) := pad_length D
  exact ⟨by omega, by omega, hlen, by omega, by omega, unpad_pad D⟩

end Sys2Proof.Machine
end

section
/-! PROOF. The functions of 47_cbc.md block by block: the chain of `cbc_encrypt` (R180), the blocks that `cbc_decrypt`
recovers (R181, R187), the lengths of both (R185) and how the second undoes the first (R186). -/

namespace Sys2Proof.Machine

open Sys2Proof.Claims

/-! ## Blocks of a sequence -/

theorem blockAt_zero (B : List Byte) : blockAt B 0 = blockOfList (slice B 0 16) := by
  rw [blockOfList_slice]
  simp only [blockAt, blockOfList, Nat.mul_zero, Nat.zero_add]

theorem blockAt_drop (B : List Byte) (i : Nat) : blockAt (B.drop 16) i = blockAt B (i + 1) := by
  apply Vector.ext
  intro j hj
  have hidx : 16 + (16 * i + j) = 16 * (i + 1) + j := by omega
  simp [blockAt, List.getD_eq_getElem?_getD, hidx]

@[simp] theorem drop_toList_append (X : Block) (L : List Byte) : (X.toList ++ L).drop 16 = L :=
  List.drop_left' (by simp)

@[simp] theorem slice_toList_append (X : Block) (L : List Byte) : slice (X.toList ++ L) 0 16 = X.toList :=
  List.take_left' (by simp)

theorem blockAt_append_zero (X : Block) (L : List Byte) : blockAt (X.toList ++ L) 0 = X := by
  simp [blockAt_zero]

theorem blockAt_append_succ (X : Block) (L : List Byte) (i : Nat) :
    blockAt (X.toList ++ L) (i + 1) = blockAt L i := by
  rw [← blockAt_drop, drop_toList_append]

/-! ## Encryption -/

/-- The chain of R180 along the loop of `cbc_encrypt`, its output put after the block it starts from. -/
theorem blockAt_cbcEncryptFrom (W : Schedule) {n i : Nat} (hi : i < n) (M : List Byte) (prev : Block) :
    blockAt (prev.toList ++ cbcEncryptFrom W n M prev) (i + 1)
      = forward (xorBlock (blockAt M i) (blockAt (prev.toList ++ cbcEncryptFrom W n M prev) i)) W := by
  induction n generalizing i M prev with
  | zero => omega
  | succ n ih =>
    simp only [cbcEncryptFrom, ← blockAt_zero]
    rw [blockAt_append_succ]
    cases i with
    | zero => rw [blockAt_append_zero, blockAt_append_zero]
    | succ i => rw [blockAt_append_succ prev, ih (by omega), blockAt_drop]

/-- Settles O41: the chain of the loop, on the padded plaintext and from the IV. -/
theorem cbcEncryptChain : Obligations.CbcEncryptChain := by
  refine fun K P IV => ⟨?_, blockAt_append_zero _ _, fun i hi => blockAt_cbcEncryptFrom _ hi _ _⟩
  rw [cbcEncrypt_length, pad_length, padlen]
  omega

/-! ## Decryption -/

/-- What the loop of `cbc_decrypt` recovers from the blocks after the first of `C`. -/
theorem blockAt_cbcDecryptFrom (W : Schedule) {n i : Nat} (hi : i < n) (C : List Byte) :
    blockAt (cbcDecryptFrom W n (C.drop 16) (blockAt C 0)) i
      = xorBlock (inverse (blockAt C (i + 1)) W) (blockAt C i) := by
  induction n generalizing i C with
  | zero => omega
  | succ n ih =>
    simp only [cbcDecryptFrom, ← blockAt_zero]
    cases i with
    | zero => rw [blockAt_append_zero, blockAt_drop]
    | succ i => rw [blockAt_append_succ, ih (by omega), blockAt_drop, blockAt_drop]

theorem recovered_length (K : Block) (C : List Byte) : (recovered K C).length = 16 * (C.length / 16 - 1) :=
  cbcDecryptFrom_length _ _ _ _

/-- Recovered block `i - 1` comes from ciphertext blocks `i - 1` and `i` (R187). -/
theorem blockAt_recovered (K : Block) {C : List Byte} {i : Nat} (h1 : 1 ≤ i) (hi : i < C.length / 16) :
    blockAt (recovered K C) (i - 1) = xorBlock (inverse (blockAt C i) (expand K)) (blockAt C (i - 1)) := by
  obtain ⟨j, rfl⟩ := Nat.exists_eq_add_of_le' h1
  exact blockAt_cbcDecryptFrom _ (by omega) C

/-- Settles O42: neither of the two blocks that `blockAt_recovered` names is block `k`. -/
theorem cbcDecryptIsLocal : Obligations.CbcDecryptIsLocal := by
  refine ⟨fun K C i _ h1 hi => blockAt_recovered K h1 hi, fun K C C' k i hlen _ hsame h1 hi hk hk1 => ?_⟩
  rw [blockAt_recovered K h1 hi, blockAt_recovered K h1 (hlen ▸ hi), hsame i hk, hsame (i - 1) (by omega)]

/-- `cbc_decrypt` of a ciphertext of a bad length. -/
theorem cbcDecrypt_of_bad_length (K : Block) {C : List Byte} (h : C.length < 32 ∨ C.length % 16 ≠ 0) :
    cbcDecrypt K C = .error .invalidCiphertextLength := if_pos h

/-- `cbc_decrypt` of a ciphertext of a legal length. -/
theorem cbcDecrypt_of_legal_length (K : Block) {C : List Byte} (h : ¬ (C.length < 32 ∨ C.length % 16 ≠ 0)) :
    cbcDecrypt K C = unpad (recovered K C) := by
  rw [recovered, blockAt_zero]
  exact if_neg h

/-- Where the length is legal, the padding of the recovered blocks decides. -/
theorem cbcDecrypt_cases (K : Block) {C : List Byte} (h : ¬ (C.length < 32 ∨ C.length % 16 ≠ 0)) :
    (goodPadding (recovered K C) ∧ ∃ D, cbcDecrypt K C = .ok D)
      ∨ (¬ goodPadding (recovered K C) ∧ cbcDecrypt K C = .error .invalidPadding) := by
  have hlen := recovered_length K C
  rw [cbcDecrypt_of_legal_length K h]
  obtain ⟨hgood, hok⟩ | hbad := unpad_of_whole_blocks (P := recovered K C) (by omega) (by omega)
  · exact .inl ⟨hgood, _, hok⟩
  · exact .inr hbad

theorem cbcDecrypt_error {K : Block} {C : List Byte} {e : ErrorCode} (h : cbcDecrypt K C = .error e) :
    e = if C.length < 32 ∨ C.length % 16 ≠ 0 then .invalidCiphertextLength else .invalidPadding := by
  split_ifs with hlen
  · rw [cbcDecrypt_of_bad_length K hlen] at h
    exact (Except.error.inj h).symm
  · obtain ⟨-, D, hok⟩ | ⟨-, hbad⟩ := cbcDecrypt_cases K hlen
    · rw [hok] at h
      cases h
    · rw [hbad] at h
      exact (Except.error.inj h).symm

/-- A successful decryption takes off the IV and 1 to 16 bytes of padding. -/
theorem cbcDecrypt_ok_length {K : Block} {C D : List Byte} (h : cbcDecrypt K C = .ok D) :
    C.length - 32 ≤ D.length ∧ D.length ≤ C.length - 17 := by
  by_cases hlen : C.length < 32 ∨ C.length % 16 ≠ 0
  · rw [cbcDecrypt_of_bad_length K hlen] at h
    cases h
  · rw [cbcDecrypt_of_legal_length K hlen] at h
    obtain ⟨-, n, h1, h16, hsplit⟩ := unpad_eq_ok_iff.mp h
    have hsum := recovered_length K C
    rw [hsplit, List.length_append, List.length_replicate] at hsum
    omega

/-! ## Decryption undoes encryption -/

/-- The loop of `cbc_decrypt` takes off block by block what that of `cbc_encrypt` put on. -/
theorem cbcDecryptFrom_cbcEncryptFrom (W : Schedule) {n : Nat} {M : List Byte} (hM : M.length = 16 * n)
    (prev : Block) : cbcDecryptFrom W n (cbcEncryptFrom W n M prev) prev = M := by
  induction n generalizing M prev with
  | zero => exact (List.eq_nil_of_length_eq_zero hM).symm
  | succ n ih =>
    have htail : (M.drop 16).length = 16 * n := by rw [List.length_drop]; omega
    have hhead : (slice M 0 16).length = 16 := slice_length (by omega)
    calc cbcDecryptFrom W (n + 1) (cbcEncryptFrom W (n + 1) M prev) prev
        = (blockOfList (slice M 0 16)).toList ++ M.drop 16 := by
          simp [cbcDecryptFrom, cbcEncryptFrom, inverse_forward, ih htail]
      _ = M.take 16 ++ M.drop 16 := by rw [toList_blockOfList hhead]; rfl
      _ = M := List.take_append_drop 16 M

theorem recovered_cbcEncrypt (K : Block) (P : List Byte) (IV : Block) :
    recovered K (cbcEncrypt K P IV) = pad P := by
  have hpad : (pad P).length = 16 * ((pad P).length / 16) := by rw [pad_length, padlen]; omega
  have hblocks : (cbcEncrypt K P IV).length / 16 - 1 = (pad P).length / 16 := by
    rw [cbcEncrypt_length, pad_length]; omega
  rw [recovered, hblocks, cbcEncrypt, drop_toList_append, blockAt_append_zero]
  exact cbcDecryptFrom_cbcEncryptFrom _ hpad IV

theorem cbcDecrypt_cbcEncrypt (K : Block) (P : List Byte) (IV : Block) :
    cbcDecrypt K (cbcEncrypt K P IV) = .ok P := by
  have hlen := cbcEncrypt_length K P IV
  rw [padlen] at hlen
  rw [cbcDecrypt_of_legal_length K (by omega), recovered_cbcEncrypt, unpad_pad]

end Sys2Proof.Machine
end

section
/-! PROOF. The commands `CBCENC` (R182) and `CBCDEC` (R183): their net effect for a key given as a block, the discard on
every way out (R184), the length of the output (R185), and the program of R186 on the engine. -/

namespace Sys2Proof.Machine

open Sys2Proof.Claims

/-! ## The ends of the two commands -/

theorem klen_of_kbuf {s : State} {K : Block} (hK : s.kbuf = K.toList) : s.klen = 16 := by
  rw [State.klen, hK, Vector.length_toList]

/-- What a CBC command writes that ends with the output `D`, the discard and the code `e`. -/
theorem raise_setDout_discard (e : ErrorCode) (D : List Byte) (s : State) :
    raise e (s.setDout D).discard = .next { s with
      dout := D
      rk := Vector.replicate 176 0x00
      sv := false
      sReg := Vector.replicate 16 0x00
      err := e } := rfl

theorem exec_cbcenc_of_kbuf {s : State} {K IV : Block} {P : List Byte} (hK : s.kbuf = K.toList)
    (hP : s.din = P) (hIV : s.nextDraw = IV) :
    exec .cbcenc s = complete (s.takeDraw.setDout (cbcEncrypt K P IV)).discard := by
  rw [exec_cbcenc, if_pos (klen_of_kbuf hK), keyOperand_of_kbuf hK, hP, hIV]

theorem exec_cbcenc_of_klen_ne {s : State} (h : s.klen ≠ 16) :
    exec .cbcenc s = raise .invalidKeyLength (s.setDout []).discard := by
  rw [exec_cbcenc, if_neg h]

theorem exec_cbcdec_of_ok {s : State} {K : Block} {D : List Byte} (hK : s.kbuf = K.toList)
    (hD : cbcDecrypt K s.din = .ok D) : exec .cbcdec s = complete (s.setDout D).discard := by
  rw [exec_cbcdec, if_pos (klen_of_kbuf hK), keyOperand_of_kbuf hK, hD]

theorem exec_cbcdec_of_error {s : State} {K : Block} {e : ErrorCode} (hK : s.kbuf = K.toList)
    (he : cbcDecrypt K s.din = .error e) : exec .cbcdec s = raise e (s.setDout []).discard := by
  rw [exec_cbcdec, if_pos (klen_of_kbuf hK), keyOperand_of_kbuf hK, he]

theorem exec_cbcdec_of_klen_ne {s : State} (h : s.klen ≠ 16) :
    exec .cbcdec s = raise .invalidKeyLength (s.setDout []).discard := by
  rw [exec_cbcdec, if_neg h]

/-- Settles O39: the two ends of `CBCENC` field by field, and the word with no operand. -/
theorem cbcencCommand : Obligations.CbcencCommand := by
  refine ⟨fun K s hK => ?_, fun s h => ?_, noOperandWord_of_instrOfOp (by decide) rfl rfl⟩
  · exact (exec_cbcenc_of_kbuf hK rfl rfl).trans (raise_setDout_discard .ok _ s.takeDraw)
  · exact (exec_cbcenc_of_klen_ne h).trans (raise_setDout_discard _ _ s)

/-- Settles O40: the ends of `CBCDEC` field by field, each with the condition that leads to it, and the word with no
operand. -/
theorem cbcdecCommand : Obligations.CbcdecCommand := by
  refine ⟨fun K s D hK hD => ?_, fun K s _ h32 hmod hgood => ?_, fun K s e hK he => ?_,
    fun K C e => cbcDecrypt_error, fun s h => ?_, noOperandWord_of_instrOfOp (by decide) rfl rfl⟩
  · exact (exec_cbcdec_of_ok hK hD).trans (raise_setDout_discard .ok D s)
  · have hlegal : ¬ (s.din.length < 32 ∨ s.din.length % 16 ≠ 0) := by rw [State.dinlen] at h32 hmod; omega
    obtain ⟨-, hok⟩ := (cbcDecrypt_cases K hlegal).resolve_right fun hbad => hbad.1 hgood
    exact hok
  · exact (exec_cbcdec_of_error hK he).trans (raise_setDout_discard e [] s)
  · exact (exec_cbcdec_of_klen_ne h).trans (raise_setDout_discard _ _ s)

/-! ## The discard -/

/-- Each way out of the two commands is a discard and a write of `ERR`, with the key and the input as they were. -/
theorem exec_cbc_discards {i : Instr} (hi : i = .cbcenc ∨ i = .cbcdec) (s : State) :
    ∃ (u : State) (e : ErrorCode), exec i s = raise e u.discard ∧ u.kbuf = s.kbuf ∧ u.din = s.din := by
  obtain rfl | rfl := hi
  · rw [exec_cbcenc]
    split
    · exact ⟨_, .ok, rfl, rfl, rfl⟩
    · exact ⟨_, _, rfl, rfl, rfl⟩
  · rw [exec_cbcdec]
    split
    · split
      · exact ⟨_, .ok, rfl, rfl, rfl⟩
      · exact ⟨_, _, rfl, rfl, rfl⟩
    · exact ⟨_, _, rfl, rfl, rfl⟩

/-- Settles O45: the discard zeroes the registers, and the write of `ERR` after it touches none of them. -/
theorem discardOnEveryWayOut : Obligations.DiscardOnEveryWayOut := by
  intro i s hi
  obtain ⟨u, e, hexec, hkbuf, hdin⟩ := exec_cbc_discards hi s
  refine ⟨u.discard.setErr e, hexec, fun j => ?_, rfl, fun j => ?_, hkbuf, hdin⟩
  · exact zeroSchedule_getElem j j.isLt
  · exact zeroBlock_getElem j j.isLt

/-! ## The length of the output -/

theorem doutlen_of_exec_cbcenc {s t : State} (hk : s.klen = 16) (h : exec .cbcenc s = .next t) :
    t.doutlen = 16 * (s.dinlen / 16 + 2) := by
  rw [exec_cbcenc, if_pos hk, complete_next_iff] at h
  have hdout : t.dout = cbcEncrypt (keyOperand s) s.din s.nextDraw := by rw [h]; rfl
  rw [State.doutlen, hdout, cbcEncrypt_length, padlen, State.dinlen]
  omega

/-- Settles O43: the lengths come down to `padlen`; the capacity is that of R38, which `CBCENC` keeps. -/
theorem cbcLengths : Obligations.CbcLengths := by
  refine ⟨fun K P IV => ?_, fun K C D => cbcDecrypt_ok_length, fun K C => cbcDecrypt_of_bad_length K,
    fun s t hk hs ht => ⟨doutlen_of_exec_cbcenc hk ht, fun c hc => ?_⟩⟩
  · have hlen := cbcEncrypt_length K P IV
    rw [padlen] at hlen
    exact ⟨cbcEncrypt_length K P IV, by omega, by omega, by omega, slice_toList_append IV _⟩
  · obtain ⟨-, ⟨-, hcap⟩, -⟩ := Safety.keeps_exec hs .cbcenc t ht
    exact (hcap c hc).2

/-! ## The program of R186 -/

/-- A run serves the oldest event and goes on from the state that it leaves. -/
theorem run_succ_of_event {s t : State} {e : HostEvent} {es : List HostEvent} {k : Nat} {r : Result}
    (hp : s.pending = e :: es) (h : serve e (s.setPending es) = .next t) (hrest : Sys2Proof.core.run k t = r) :
    Sys2Proof.core.run (k + 1) s = r :=
  (run_succ_of_step ((step_of_event hp).trans h) k).trans hrest

theorem serve_loadKey_block (K : Block) (s : State) :
    serve (.loadKey K.toList) s = .next (s.setKbuf K.toList).dropSchedule :=
  if_pos (by rw [Vector.length_toList]; decide)

theorem serve_loadData {M : List Byte} {s : State} (hM : fits M.length s.cap = true) :
    serve (.loadData M) s = .next (s.setDin M) := if_pos hM

theorem serve_readAll_dout (s : State) :
    serve (.readAll 0x14) s = .next (s.setReadback (s.dout.map (·.toNat))) := rfl

theorem serve_cbcenc_word (s : State) : serve (.writeCmd 0x80000000) s = exec .cbcenc s :=
  runCommand_of_ok (w := 0x80000000) rfl s

theorem serve_cbcdec_word (s : State) : serve (.writeCmd 0x81000000) s = exec .cbcdec s :=
  runCommand_of_ok (w := 0x81000000) rfl s

/-- The state in which the first half of R186's program leaves the engine: the key `K` and the message `P` loaded, a
draw taken, the ciphertext `C` put out and read, the working registers discarded. -/
def State.encrypted (K : Block) (P C : List Byte) (s : State) : State :=
  ((((s.setKbuf K.toList).setDin P).takeDraw.setDout C).discard.setErr .ok).setPending []
    |>.setReadback (C.map (·.toNat))

/-- The first half of R186's program. -/
theorem run_encrypt (K : Block) {P : List Byte} {s : State} (hP : fits P.length s.cap = true) :
    Sys2Proof.core.run 4
        (s.setPending [.loadKey K.toList, .loadData P, .writeCmd 0x80000000, .readAll 0x14])
      = .next (s.encrypted K P (cbcEncrypt K P s.nextDraw)) := by
  refine run_succ_of_event rfl (serve_loadKey_block K _) ?_
  refine run_succ_of_event rfl (serve_loadData hP) ?_
  refine run_succ_of_event rfl ((serve_cbcenc_word _).trans
    (exec_cbcenc_of_kbuf (K := K) (P := P) (IV := s.nextDraw) rfl rfl rfl)) ?_
  generalize cbcEncrypt K P s.nextDraw = C
  exact run_succ_of_event rfl (serve_readAll_dout _) rfl

/-- The second half of R186's program, on an engine that holds the key. -/
theorem run_decrypt {K : Block} {C D : List Byte} {t : State} (hK : t.kbuf = K.toList)
    (hC : fits C.length t.cap = true) (hD : cbcDecrypt K C = .ok D) :
    Sys2Proof.core.run 2 (t.setPending [.loadData C, .writeCmd 0x81000000])
      = complete (((t.setPending []).setDin C).setDout D).discard := by
  refine run_succ_of_event rfl (serve_loadData hC) ?_
  exact run_succ_of_event rfl ((serve_cbcdec_word _).trans (exec_cbcdec_of_ok hK hD)) rfl

/-- Settles O44: the engine's two halves have the net effect of the functions, which undo each other. -/
theorem cbcRoundTrip : Obligations.CbcRoundTrip := by
  refine ⟨cbcDecrypt_cbcEncrypt, fun K P s hcap => ?_⟩
  have hlen : (cbcEncrypt K P s.nextDraw).length = 16 * (P.length / 16 + 2) := by
    rw [cbcEncrypt_length, padlen]; omega
  have hC : fits (cbcEncrypt K P s.nextDraw).length s.cap = true := by rw [hlen]; exact (fits_iff _ _).mpr hcap
  have hP : fits P.length s.cap = true :=
    (fits_iff _ _).mpr fun c hc => le_trans (by omega) (hcap c hc)
  exact ⟨s.encrypted K P _, cbcEncrypt K P s.nextDraw, _, run_encrypt K hP, rfl, rfl,
    run_decrypt (K := K) rfl hC (cbcDecrypt_cbcEncrypt K P s.nextDraw), rfl, rfl⟩

end Sys2Proof.Machine
end

section
/-! PROOF. Decoder and encoder undo each other (R92, R96): the word of a well-formed command passes the decoder's
checks, and a word that passes them is the word of the command that its opcode names. -/

namespace Sys2Proof.Machine

open Sys2Proof.Claims

/-! ## Decoding the word of a command -/

/-- The encoder puts the opcode and the operands where the decoder looks for them, and a well-formed command's operands
pass its checks. -/
theorem decode_encode {i : Instr} (h : i.wellFormed = true) : decode (encode i) = .ok i := by
  cases i with
  | xtime a | sbox a | isbox a =>
    exact decode_word_eq_ok_iff.mpr ⟨rfl, (fieldsLegal_unary_iff (by decide) _ _ _).mpr ⟨rfl, rfl⟩⟩
  | gmul a b => exact decode_word_eq_ok_iff.mpr ⟨rfl, (fieldsLegal_gmul_iff _ _ _).mpr rfl⟩
  | rcon a =>
    have ha : 1 ≤ a.toNat ∧ a.toNat ≤ 10 := by simpa [Instr.wellFormed] using h
    exact decode_word_eq_ok_iff.mpr ⟨rfl, (fieldsLegal_rcon_iff _ _ _).mpr ⟨rfl, rfl, ha⟩⟩
  | addrk a =>
    have ha : a.toNat ≤ 10 := by simpa [Instr.wellFormed] using h
    exact decode_word_eq_ok_iff.mpr ⟨rfl, (fieldsLegal_addrk_iff _ _ _).mpr ⟨rfl, rfl, ha⟩⟩
  | keyexp | subb | shrow | mixc | isubb | ishrow | imixc | encblk | decblk | pad | unpad | cbcenc | cbcdec | clr => rfl

/-- Settles O3: it is `decode_encode`. -/
theorem decodeOfEncode : Obligations.DecodeOfEncode := fun _ h => decode_encode h

/-! ## Encoding what a word decodes to -/

/-- The opcodes without operands, each with its command and that command's word. -/
theorem exists_noOperand_instr : ∀ op ∈ opcodes, hasOperandA op = false →
    ∃ i, instrOfOp op 0x00 0x00 = some i ∧ encode i = word op 0x00 0x00 0x00 ∧ i.wellFormed = true := by
  simp [opcodes, hasOperandA, instrOfOp, encode, Instr.wellFormed, packWord, word]

/-- With legal fields the command that the opcode names is well-formed and has the fields' word. -/
theorem encode_of_instrOfOp {op rsv a b : Byte} {i : Instr} (hi : instrOfOp op a b = some i)
    (h : FieldsLegal op rsv a b) : encode i = word op rsv a b ∧ i.wellFormed = true := by
  obtain rfl := h.rsv_zero
  cases hop : hasOperandA op with
  | false =>
    obtain ⟨-, rfl, rfl⟩ := (fieldsLegal_noOperand_iff h.op_mem hop _ _ _).mp h
    obtain ⟨j, hj, hword⟩ := exists_noOperand_instr op h.op_mem hop
    obtain rfl : j = i := Option.some.inj (hj.symm.trans hi)
    exact hword
  | true =>
    have hmem := (hasOperandA_iff op).mp hop
    simp only [List.mem_cons, List.not_mem_nil, or_false] at hmem
    obtain rfl | rfl | rfl | rfl | rfl | rfl := hmem <;> cases hi
    · obtain rfl := h.b_zero (by decide)
      exact ⟨rfl, rfl⟩
    · exact ⟨rfl, rfl⟩
    iterate 2
      · obtain rfl := h.b_zero (by decide)
        exact ⟨rfl, rfl⟩
    · obtain ⟨-, rfl, ha⟩ := (fieldsLegal_rcon_iff _ _ _).mp h
      exact ⟨rfl, by simpa [Instr.wellFormed] using ha⟩
    · obtain ⟨-, rfl, ha⟩ := (fieldsLegal_addrk_iff _ _ _).mp h
      exact ⟨rfl, by simpa [Instr.wellFormed] using ha⟩

theorem encode_of_decode {w : CmdWord} {i : Instr} (h : decode w = .ok i) : encode i = w ∧ i.wellFormed = true := by
  obtain ⟨op, rsv, a, b, rfl⟩ := exists_eq_word w
  obtain ⟨hi, hfields⟩ := decode_word_eq_ok_iff.mp h
  exact encode_of_instrOfOp hi hfields

/-- Settles O4: it is `encode_of_decode`. -/
theorem encodeOfDecode : Obligations.EncodeOfDecode := fun _ _ => encode_of_decode

/-! ## The step on a command word -/

/-- Settles O1: the step serves the write to `CMD`, which executes the decoded command; `encode_of_decode` makes it
well-formed. -/
theorem stepRunsDecodedCommand : Obligations.StepRunsDecodedCommand := by
  intro s w i rest hp hw
  obtain ⟨-, hwf⟩ := encode_of_decode hw
  exact ⟨hwf, (step_of_event hp).trans (runCommand_of_ok hw _)⟩

/-- Settles O5: six of the words are those of well-formed commands; the other two fail a check of the decoder. -/
theorem sampleWordsDecode : Obligations.SampleWordsDecode :=
  ⟨decode_encode (i := .xtime 0x57) rfl, decode_encode (i := .gmul 0xff 0xff) rfl,
    decode_encode (i := .sbox 0x53) rfl, decode_encode (i := .rcon 10) rfl, decode_encode (i := .addrk 10) rfl,
    decode_encode (i := .cbcenc) rfl, by decide, by decide⟩

end Sys2Proof.Machine
end

section
/-! PROOF. The laws of the field multiplication (R115), read in the quotient of R110 (`residue`), and the forward table
as the affine map of the field inverse (R120). Undoing the affine map on the table's entries gives every inverse. -/

namespace Sys2Proof.Machine

/-! ## The laws of `mul` -/

theorem mul_comm_byte (a b : Byte) : mul a b = mul b a :=
  residue_injective (by rw [residue_mul, residue_mul, mul_comm])

theorem mul_assoc_byte (a b c : Byte) : mul (mul a b) c = mul a (mul b c) :=
  residue_injective (by simp only [residue_mul, mul_assoc])

/-- Doubling a factor doubles the product: both are multiplication by `x`. -/
@[simp] theorem mul_xtime_right (a b : Byte) : mul a (xtime b) = xtime (mul a b) :=
  residue_injective (by simp only [residue_mul, residue_xtime, mul_left_comm])

/-- The products by the coefficients of the two column steps: each coefficient is built from 0x01 by doublings. -/
theorem mul_coefficients (a : Byte) :
    mul a 0x02 = xtime a ∧ mul a 0x03 = xtime a ^^^ a ∧ mul a 0x09 = xtime (xtime (xtime a)) ^^^ a
      ∧ mul a 0x0B = xtime (xtime (xtime a)) ^^^ xtime a ^^^ a
      ∧ mul a 0x0D = xtime (xtime (xtime a)) ^^^ xtime (xtime a) ^^^ a
      ∧ mul a 0x0E = xtime (xtime (xtime a)) ^^^ xtime (xtime a) ^^^ xtime a := by
  have h02 : (0x02 : Byte) = xtime 1#8 := rfl
  have h03 : (0x03 : Byte) = xtime 1#8 ^^^ 1#8 := rfl
  have h09 : (0x09 : Byte) = xtime (xtime (xtime 1#8)) ^^^ 1#8 := rfl
  have h0B : (0x0B : Byte) = xtime (xtime (xtime 1#8)) ^^^ xtime 1#8 ^^^ 1#8 := rfl
  have h0D : (0x0D : Byte) = xtime (xtime (xtime 1#8)) ^^^ xtime (xtime 1#8) ^^^ 1#8 := rfl
  have h0E : (0x0E : Byte) = xtime (xtime (xtime 1#8)) ^^^ xtime (xtime 1#8) ^^^ xtime 1#8 := rfl
  rw [h02, h03, h09, h0B, h0D, h0E]
  simp only [mul_xor_right, mul_xtime_right, mul_one_right, and_self]

/-! ## Field inverses -/

/-- The affine map of R120. -/
def affineMap (t : Byte) : Byte :=
  t ^^^ t.rotateLeft 1 ^^^ t.rotateLeft 2 ^^^ t.rotateLeft 3 ^^^ t.rotateLeft 4 ^^^ 0x63

/-- The field inverse of a byte, read off the forward table by undoing the affine map; 0 for 0. -/
def fieldInverse (a : Byte) : Byte :=
  let v := sboxAt a
  v.rotateLeft 1 ^^^ v.rotateLeft 3 ^^^ v.rotateLeft 6 ^^^ 0x05

theorem affineMap_fieldInverse : ∀ a : Byte, affineMap (fieldInverse a) = sboxAt a := by decide +kernel

theorem mul_fieldInverse : ∀ a : Byte, a ≠ 0x00 → mul a (fieldInverse a) = 0x01 := by decide +kernel

/-- An inverse is unique: `b * (a * c)` is `c` on one side and `b` on the other. -/
theorem eq_fieldInverse {a b : Byte} (ha : a ≠ 0x00) (hb : mul a b = 0x01) : b = fieldInverse a :=
  calc b = mul b 0x01 := (mul_one_right b).symm
    _ = mul b (mul a (fieldInverse a)) := by rw [mul_fieldInverse a ha]
    _ = mul (mul a b) (fieldInverse a) := by rw [← mul_assoc_byte, mul_comm_byte b a]
    _ = mul (fieldInverse a) 0x01 := by rw [hb, mul_comm_byte]
    _ = fieldInverse a := mul_one_right _

/-- Settles O18: the laws are the lemmas above and those of the column steps. -/
theorem galoisFieldLaws : Obligations.GaloisFieldLaws :=
  ⟨mul_comm_byte, mul_xor_right, mul_assoc_byte, fun a => ⟨mul_one_right a, mul_coefficients a⟩,
    fun a ha => ⟨fieldInverse a, mul_fieldInverse a ha, fun _ hb => eq_fieldInverse ha hb⟩⟩

/-- Settles O23: `t` is the inverse that the table's entry gives back. -/
theorem sboxIsAffineOfInverse : Obligations.SboxIsAffineOfInverse := by
  intro a t hzero hinv
  have ht : t = fieldInverse a := by
    by_cases ha : a = 0x00
    · rw [hzero ha, ha]
      rfl
    · exact eq_fieldInverse ha (hinv ha)
  rw [ht]
  exact (affineMap_fieldInverse a).symm

end Sys2Proof.Machine
end

section
/-! PROOF. The properties of `expand` (R134). In the recurrence of R132 the words `k`, `k - 4` and `k - 1` determine
each other: from four words in a row both the next word and the one before them follow, so two expansions that agree in one
round key agree in all. -/

namespace Sys2Proof.Machine

/-- Two expansions agree in word `k`. -/
def WordsAgree (K K' : Block) (k : Nat) : Prop :=
  ∀ j < 4, (expand K).toList.getD (4 * k + j) 0 = (expand K').toList.getD (4 * k + j) 0

/-- What is exclusive-ored into byte `j` of word `k - 4` to give byte `j` of word `k` (R132). -/
def wordIncrement (W : List Byte) (k j : Nat) : Byte :=
  if k % 4 = 0 then sboxAt (W.getD (4 * k - 4 + (j + 1) % 4) 0) ^^^ (if j = 0 then rconAt (k / 4) else 0x00)
  else W.getD (4 * k - 4 + j) 0

/-- It comes from word `k - 1`. -/
theorem wordIncrement_eq {K K' : Block} {k j : Nat} (h : WordsAgree K K' (k + 3)) (hj : j < 4) :
    wordIncrement (expand K).toList (k + 4) j = wordIncrement (expand K').toList (k + 4) j := by
  have hprev : 4 * (k + 4) - 4 = 4 * (k + 3) := by omega
  simp only [wordIncrement, hprev, h _ hj, h _ (Nat.mod_lt _ (by decide))]

/-- Given word `k + 3`, the words `k` and `k + 4` determine each other. -/
theorem wordsAgree_add_four_iff {K K' : Block} {k : Nat} (hk : k < 40) (h : WordsAgree K K' (k + 3)) :
    WordsAgree K K' (k + 4) ↔ WordsAgree K K' k := by
  refine forall₂_congr fun j hj => ?_
  have hrec (K : Block) : (expand K).toList.getD (4 * (k + 4) + j) 0
      = (expand K).toList.getD (4 * k + j) 0 ^^^ wordIncrement (expand K).toList (k + 4) j :=
    (expandRecurrence K).2 (k + 4) j (by omega) (by omega) hj
  rw [hrec K, hrec K', wordIncrement_eq h hj, BitVec.xor_left_inj]

/-- Two expansions agree in word `k` and the three after it. -/
def FourWordsAgree (K K' : Block) (k : Nat) : Prop := ∀ m, k ≤ m → m < k + 4 → WordsAgree K K' m

theorem fourWordsAgree_succ_iff {K K' : Block} {k : Nat} (hk : k < 40) :
    FourWordsAgree K K' (k + 1) ↔ FourWordsAgree K K' k := by
  constructor
  · intro h m hm hm'
    rcases hm.eq_or_lt with rfl | hlt
    · exact (wordsAgree_add_four_iff hk (h (k + 3) (by omega) (by omega))).mp (h (k + 4) (by omega) (by omega))
    · exact h m hlt (by omega)
  · intro h m hm hm'
    rcases Nat.lt_succ_iff_lt_or_eq.mp hm' with hlt | rfl
    · exact h m (by omega) (by omega)
    · exact (wordsAgree_add_four_iff hk (h (k + 3) (by omega) (by omega))).mpr (h k le_rfl (by omega))

theorem fourWordsAgree_iff_zero {K K' : Block} {k : Nat} (hk : k ≤ 40) :
    FourWordsAgree K K' k ↔ FourWordsAgree K K' 0 := by
  induction k with
  | zero => rfl
  | succ k ih => rw [fourWordsAgree_succ_iff (by omega), ih (by omega)]

/-! ## Round keys -/

theorem roundKey_expand_eq_iff {K K' : Block} {n : Fin 11} :
    roundKey (expand K) n = roundKey (expand K') n ↔ FourWordsAgree K K' (4 * n.val) := by
  have hbyte (K : Block) (i : Nat) (hi : i < 16) :
      (roundKey (expand K) n)[i] = (expand K).toList.getD (4 * (4 * n.val + i / 4) + i % 4) 0 := by
    have hidx : 4 * (4 * n.val + i / 4) + i % 4 = 16 * n.val + i := by omega
    rw [hidx, List.getD_eq_getElem _ _ (by rw [Vector.length_toList]; omega)]
    simp [roundKey]
  constructor
  · intro h m hm hm' j hj
    obtain ⟨c, rfl⟩ := Nat.exists_eq_add_of_le hm
    have hi : 4 * c + j < 16 := by omega
    have hquot : (4 * c + j) / 4 = c := by omega
    have hrem : (4 * c + j) % 4 = j := by omega
    simpa only [hbyte _ _ hi, hquot, hrem] using congrArg (·[4 * c + j]) h
  · intro h
    refine Vector.ext fun i hi => ?_
    rw [hbyte K i hi, hbyte K' i hi]
    exact h (4 * n.val + i / 4) (by omega) (by omega) (i % 4) (by omega)

theorem roundKey_expand_zero (K : Block) : roundKey (expand K) 0 = K := by
  refine Vector.ext fun i hi => ?_
  have hkey := getD_expand_key K ⟨i, hi⟩
  rw [List.getD_eq_getElem _ _ (by rw [Vector.length_toList]; exact hi.trans (by decide))] at hkey
  simpa [roundKey] using hkey

/-- Keys are equal as soon as their expansions have one round key in common. -/
theorem roundKey_expand_inj {K K' : Block} {n : Fin 11} :
    roundKey (expand K) n = roundKey (expand K') n ↔ K = K' := by
  have hzero : FourWordsAgree K K' 0 ↔ roundKey (expand K) 0 = roundKey (expand K') 0 :=
    (roundKey_expand_eq_iff (n := 0)).symm
  rw [roundKey_expand_eq_iff, fourWordsAgree_iff_zero (by omega), hzero, roundKey_expand_zero, roundKey_expand_zero]

/-- Settles O26: round keys of one number are equal only if the keys are. -/
theorem roundKeysDetermineEachOther : Obligations.RoundKeysDetermineEachOther :=
  ⟨roundKey_expand_zero, fun _ _ _ h => roundKey_expand_inj.mpr (roundKey_expand_inj.mp h),
    fun _ _ _ => roundKey_expand_inj.mp⟩

end Sys2Proof.Machine
end

section
/-! PROOF. How a command ends, said once for all twenty: with an error of R202's table it leaves the state of R205 for
its failure; without one, a state in which only its listed registers and spaces have been written (R60). The
whole-machine rules on errors and writers are read off from that. -/

namespace Sys2Proof.Machine

open Sys2Proof.Claims

/-! ## The state after a failure -/

/-- What a command that fails has made of the state when it writes `ERR` (R205). -/
def failState (i : Instr) (s : State) : State :=
  match i with
  | .unpad => s.setDout []
  | .cbcenc | .cbcdec => (s.setDout []).discard
  | _ => s

/-! ## The listed writers -/

/-- From `s` to `t` nothing has changed but what the command `i` is listed to write: the column "engine writes" of R60,
and the writers of `RES`, `S`, `SV` and the draw. -/
structure WritesListed (i : Instr) (s t : State) : Prop where
  kbuf : writesSpace i .kbuf = false → t.kbuf = s.kbuf
  rk : writesSpace i .rk = false → t.rk = s.rk
  din : writesSpace i .din = false → t.din = s.din
  dout : writesSpace i .dout = false → t.dout = s.dout
  res : writesRes i = false → t.res = s.res
  sReg : writesS i = false → t.sReg = s.sReg
  sv : writesSv i = false → t.sv = s.sv
  draw : i ≠ .cbcenc → t.rng = s.rng ∧ t.draws = s.draws
  cap : t.cap = s.cap
  pending : t.pending = s.pending
  readback : t.readback = s.readback

namespace WritesListed

theorem refl (i : Instr) (s : State) : WritesListed i s s :=
  ⟨fun _ => rfl, fun _ => rfl, fun _ => rfl, fun _ => rfl, fun _ => rfl, fun _ => rfl, fun _ => rfl,
    fun _ => ⟨rfl, rfl⟩, rfl, rfl, rfl⟩

variable {i : Instr} {s t : State}

theorem setErr (h : WritesListed i s t) (e : ErrorCode) : WritesListed i s (t.setErr e) := { h with }

theorem setRes (h : WritesListed i s t) (hi : writesRes i = true) (v : Byte) : WritesListed i s (t.setRes v) :=
  { h with res := fun hn => absurd hn (by simp [hi]) }

theorem setS (h : WritesListed i s t) (hi : writesS i = true) (B : Block) : WritesListed i s (t.setS B) :=
  { h with sReg := fun hn => absurd hn (by simp [hi]) }

theorem setDout (h : WritesListed i s t) (hi : writesSpace i .dout = true) (D : List Byte) :
    WritesListed i s (t.setDout D) :=
  { h with dout := fun hn => absurd hn (by simp [hi]) }

theorem setSchedule (h : WritesListed i s t) (hrk : writesSpace i .rk = true) (hsv : writesSv i = true)
    (W : Schedule) : WritesListed i s (t.setSchedule W) :=
  { h with
    rk := fun hn => absurd hn (by simp [hrk])
    sv := fun hn => absurd hn (by simp [hsv]) }

theorem dropSchedule (h : WritesListed i s t) (hrk : writesSpace i .rk = true) (hsv : writesSv i = true) :
    WritesListed i s t.dropSchedule :=
  { h with
    rk := fun hn => absurd hn (by simp [hrk])
    sv := fun hn => absurd hn (by simp [hsv]) }

theorem takeDraw (h : WritesListed .cbcenc s t) : WritesListed .cbcenc s t.takeDraw :=
  { h with draw := fun hn => absurd rfl hn }

/-- The two CBC commands are listed for all that their net effect writes. -/
theorem setDout_discard (h : WritesListed i s t) (hi : i = .cbcenc ∨ i = .cbcdec) (D : List Byte) :
    WritesListed i s (t.setDout D).discard := by
  obtain rfl | rfl := hi <;> exact ((h.setDout rfl D).dropSchedule rfl rfl).setS rfl _

/-- `CLR` is listed for every register and space, but for nothing outside the engine. -/
theorem clearEngine (s : State) : WritesListed .clr s s.clearEngine :=
  ⟨nofun, nofun, nofun, nofun, nofun, nofun, nofun, fun _ => ⟨rfl, rfl⟩, rfl, rfl, rfl⟩

theorem failState (i : Instr) (s : State) : WritesListed i s (failState i s) := by
  cases i with
  | unpad => exact (refl _ s).setDout rfl []
  | cbcenc => exact (refl _ s).setDout_discard (.inl rfl) []
  | cbcdec => exact (refl _ s).setDout_discard (.inr rfl) []
  | _ => exact refl _ s

/-- A space that the command is not listed for reads as before (R66). -/
theorem memRead_eq (h : WritesListed i s t) {sp : Space} (hsp : writesSpace i sp = false) (addr n : Nat) :
    memRead t sp addr n = memRead s sp addr n := by
  have hbytes : spaceBytes t sp = spaceBytes s sp := by
    cases sp with
    | sbox | isbox | rcon => rfl
    | kbuf => exact h.kbuf hsp
    | rk => exact congrArg Vector.toList (h.rk hsp)
    | din => exact h.din hsp
    | dout => exact h.dout hsp
  rw [memRead, hbytes, memRead]

end WritesListed

/-! ## The end of each command -/

/-- The command `i` ends with the error `e` of the table (R202) on the state `u`, which has the listed writes, and after
a failure no others than R205 has. -/
structure Ends (i : Instr) (s : State) (e : ErrorCode) (u : State) : Prop where
  exec_eq : exec i s = raise e u
  error : ErrorOf i s e
  writes : WritesListed i s u
  failed : e ≠ .ok → u = failState i s

section

variable {i : Instr} {s u : State} {e : ErrorCode}

theorem ends_complete (h : exec i s = complete u) (he : ErrorOf i s .ok) (hu : WritesListed i s u) :
    ∃ e u, Ends i s e u := ⟨.ok, u, h, he, hu, fun hne => absurd rfl hne⟩

theorem ends_raise (h : exec i s = raise e (failState i s)) (he : ErrorOf i s e) : ∃ e u, Ends i s e u :=
  ⟨e, failState i s, h, he, .failState i s, fun _ => rfl⟩

end

theorem exec_rcon_of_bad {a : Byte} (h : a.toNat < 1 ∨ 10 < a.toNat) (s : State) :
    exec (.rcon a) s = raise .illegalCommand s := by
  simp only [exec, execRcon, rconIndex_eq_none h]

theorem exec_addrk_of_bad {a : Byte} (h : 10 < a.toNat) (s : State) :
    exec (.addrk a) s = raise .illegalCommand s := by
  simp only [exec, execAddrk, roundNumber_eq_none h]

/-- A command that applies `f` to `S` and `RK` if there is a schedule. -/
theorem ends_schedule {i : Instr} {s : State} {B : Block} (hi : writesS i = true)
    (hexec : exec i s = if s.sv then complete (s.setS B) else raise .noSchedule (failState i s))
    (he : ∀ e, ErrorOf i s e ↔ e = if s.sv = false then .noSchedule else .ok) : ∃ e u, Ends i s e u := by
  cases hsv : s.sv with
  | false => exact ends_raise (hexec.trans (if_neg (by simp [hsv]))) ((he _).mpr (if_pos hsv).symm)
  | true =>
    exact ends_complete (hexec.trans (if_pos hsv)) ((he _).mpr (if_neg (by simp [hsv])).symm)
      ((WritesListed.refl i s).setS hi B)

theorem ends_rcon (a : Byte) (s : State) : ∃ e u, Ends (.rcon a) s e u := by
  by_cases ha : a.toNat < 1 ∨ 10 < a.toNat
  · exact ends_raise (exec_rcon_of_bad ha s) (if_pos ha).symm
  · exact ends_complete (exec_rcon (by omega) (by omega) s) (if_neg ha).symm ((WritesListed.refl _ s).setRes rfl _)

theorem ends_addrk (a : Byte) (s : State) : ∃ e u, Ends (.addrk a) s e u := by
  by_cases ha : 10 < a.toNat
  · exact ends_raise (exec_addrk_of_bad ha s) (if_pos ha).symm
  · obtain ⟨n, rfl⟩ := exists_eq_ofNat_round (not_lt.mp ha)
    refine ends_schedule (B := addroundkey s.sReg s.rk n) rfl ?_ fun e => by simp only [ErrorOf, if_neg ha]
    simp only [exec, execAddrk, roundNumber_eq_some, failState]

theorem ends_keyexp (s : State) : ∃ e u, Ends .keyexp s e u := by
  by_cases hk : s.klen = 16
  · exact ends_complete (if_pos hk) (if_neg (not_not.mpr hk)).symm ((WritesListed.refl _ s).setSchedule rfl rfl _)
  · exact ends_raise (exec_keyexp_of_klen_ne hk) (if_pos hk).symm

theorem ends_unpad (s : State) : ∃ e u, Ends .unpad s e u := by
  by_cases hlen : s.din.length = 0 ∨ s.din.length % 16 ≠ 0
  · exact ends_raise (exec_unpad_of_error (unpad_of_bad_length hlen)) ((if_pos hlen).mpr rfl)
  · obtain ⟨hgood, hok⟩ | ⟨hbad, herr⟩ := unpad_of_whole_blocks (P := s.din) (by omega) (by omega)
    · exact ends_complete (exec_unpad_of_ok hok) ((if_neg hlen).mpr (.inl ⟨hgood, rfl⟩))
        ((WritesListed.refl _ s).setDout rfl _)
    · exact ends_raise (exec_unpad_of_error herr) ((if_neg hlen).mpr (.inr ⟨hbad, rfl⟩))

theorem ends_cbcenc (s : State) : ∃ e u, Ends .cbcenc s e u := by
  by_cases hk : s.klen = 16
  · exact ends_complete ((exec_cbcenc s).trans (if_pos hk)) (if_neg (not_not.mpr hk)).symm
      ((WritesListed.refl _ s).takeDraw.setDout_discard (.inl rfl) _)
  · exact ends_raise (exec_cbcenc_of_klen_ne hk) (if_pos hk).symm

/-- A key of sixteen bytes, as the table of R202 reads it. -/
theorem kbuf_eq_toList_blockAt {s : State} (hk : s.klen = 16) : s.kbuf = (blockAt s.kbuf 0).toList := by
  rw [blockAt_zero, blockOfList_slice, toList_blockOfList hk]

theorem ends_cbcdec (s : State) : ∃ e u, Ends .cbcdec s e u := by
  by_cases hk : s.klen = 16
  · have hK := kbuf_eq_toList_blockAt hk
    have herror {e : ErrorCode} := (if_neg (not_not.mpr hk) : ErrorOf .cbcdec s e = _)
    by_cases hlen : s.din.length < 32 ∨ s.din.length % 16 ≠ 0
    · exact ends_raise (exec_cbcdec_of_error hK (cbcDecrypt_of_bad_length _ hlen))
        (herror.mpr ((if_pos hlen).mpr rfl))
    · obtain ⟨hgood, D, hok⟩ | ⟨hbad, herr⟩ := cbcDecrypt_cases (blockAt s.kbuf 0) hlen
      · exact ends_complete (exec_cbcdec_of_ok hK hok) (herror.mpr ((if_neg hlen).mpr (.inl ⟨hgood, rfl⟩)))
          ((WritesListed.refl _ s).setDout_discard (.inr rfl) D)
      · exact ends_raise (exec_cbcdec_of_error hK herr) (herror.mpr ((if_neg hlen).mpr (.inr ⟨hbad, rfl⟩)))
  · exact ends_raise (exec_cbcdec_of_klen_ne hk) ((if_pos hk).mpr rfl)

/-- Every command ends, in every state (R240). -/
theorem exec_ends (i : Instr) (s : State) : ∃ e u, Ends i s e u := by
  cases i with
  | xtime | gmul | sbox | isbox => exact ends_complete rfl rfl ((WritesListed.refl _ s).setRes rfl _)
  | subb | shrow | mixc | isubb | ishrow | imixc =>
    exact ends_complete rfl rfl ((WritesListed.refl _ s).setS rfl _)
  | rcon a => exact ends_rcon a s
  | addrk a => exact ends_addrk a s
  | encblk | decblk => exact ends_schedule rfl rfl fun _ => Iff.rfl
  | keyexp => exact ends_keyexp s
  | pad => exact ends_complete (exec_pad s) rfl ((WritesListed.refl _ s).setDout rfl _)
  | unpad => exact ends_unpad s
  | cbcenc => exact ends_cbcenc s
  | cbcdec => exact ends_cbcdec s
  | clr => exact ends_complete rfl rfl (.clearEngine s)

/-- The next state of a command is where it ends, with the error in `ERR`. -/
theorem exists_ends_of_exec {i : Instr} {s t : State} (h : exec i s = .next t) :
    ∃ e u, Ends i s e u ∧ t = u.setErr e := by
  obtain ⟨e, u, hends⟩ := exec_ends i s
  exact ⟨e, u, hends, raise_next_iff.mp (hends.exec_eq.symm.trans h)⟩

/-! ## The whole-machine rules -/

/-- Settles O47: each command ends, with the error of the table. -/
theorem errorTable : Obligations.ErrorTable := by
  intro i s
  obtain ⟨e, u, h⟩ := exec_ends i s
  exact ⟨u.setErr e, h.exec_eq, h.error⟩

@[simp] theorem failState_kbuf (i : Instr) (s : State) : (failState i s).kbuf = s.kbuf := by cases i <;> rfl
@[simp] theorem failState_din (i : Instr) (s : State) : (failState i s).din = s.din := by cases i <;> rfl
@[simp] theorem failState_res (i : Instr) (s : State) : (failState i s).res = s.res := by cases i <;> rfl

theorem failState_eq_self {i : Instr} {s : State} (hu : i ≠ .unpad) (he : i ≠ .cbcenc) (hd : i ≠ .cbcdec) :
    failState i s = s := by
  cases i with
  | unpad => exact absurd rfl hu
  | cbcenc => exact absurd rfl he
  | cbcdec => exact absurd rfl hd
  | _ => rfl

theorem failState_cbc {i : Instr} {s : State} (hi : i = .cbcenc ∨ i = .cbcdec) :
    failState i s = (s.setDout []).discard := by
  obtain rfl | rfl := hi <;> rfl

/-- Settles O48: after a failure only `ERR` is written on the state that `failState` gives. -/
theorem failuresArePrecise : Obligations.FailuresArePrecise := by
  intro i s t ht hne
  obtain ⟨e, u, h, rfl⟩ := exists_ends_of_exec ht
  obtain rfl := h.failed hne
  refine ⟨failState_kbuf i s, failState_din i s, failState_res i s, fun hu he hd => ?_, ?_, fun hi => ?_⟩
  · rw [failState_eq_self hu he hd]
    rfl
  · rintro rfl
    rfl
  · rw [failState_cbc hi]
    rfl

/-- Settles O49: the writes of a command are listed, and the write of `ERR` after them touches nothing that is asked
about. -/
theorem onlyListedWriters : Obligations.OnlyListedWriters := by
  intro i s t ht
  obtain ⟨e, u, h, rfl⟩ := exists_ends_of_exec ht
  have hw := h.writes.setErr e
  exact ⟨fun sp addr n hsp => hw.memRead_eq hsp addr n, hw.res, hw.sReg, hw.sv, hw.draw, hw.cap, hw.pending,
    hw.readback⟩

end Sys2Proof.Machine
end

section
/-! PROOF. The host's reads, loads and writes by id (R35, R67, R68, R70), the fields of `STATUS` (R28), and which events
have a next state (R240) and leave `ERR` (R28). -/

namespace Sys2Proof.Machine

open Sys2Proof.Claims

/-! ## The fields of `STATUS` -/

theorem status_high (s : State) : (status s).extractLsb' 4 4 = 0 := (Safety.statusLegal_all s).2

theorem status_sv (s : State) : (status s).getLsbD 3 = s.sv := by
  simp only [status]
  cases s.sv <;> cases s.err <;> rfl

theorem status_err (s : State) : (status s).extractLsb' 0 3 = errBits s.err := by
  simp only [status]
  cases s.sv <;> cases s.err <;> rfl

/-- Settles O11: the three fields above, with the codes of R200. -/
theorem statusFields : Obligations.StatusFields := by
  refine fun s => ⟨status_high s, status_sv s, ?_⟩
  rw [status_err]
  cases s.err <;> rfl

/-! ## Reads -/

/-- An element of a buffer as the host reads it. -/
theorem getD_map_toNat (B : List Byte) (i : Nat) : (B.map (·.toNat)).getD i 0 = (B.getD i 0x00).toNat :=
  List.getD_map (f := fun v : Byte => v.toNat) (d := 0x00) ..

/-- An element of a register with one element. -/
theorem getD_singleton_zero (v i : Nat) : [v].getD i 0 = if i = 0 then v else 0 := by
  cases i <;> rfl

/-- The unused ids, in the spans that R35 leaves between the registers. -/
theorem regElements_unused (s : State) {id : Nat} (h : (6 ≤ id ∧ id ≤ 0x0F) ∨ 0x15 ≤ id) : regElements s id = [0] := by
  unfold regElements
  split
  iterate 10 next => omega
  next => rfl

/-- Settles O9: a read writes the host's answer only, and each register's elements are those of `regElements`. -/
theorem hostReadEffect : Obligations.HostReadEffect := by
  intro s id i
  refine ⟨step_present _ s, ⟨regElements s id, step_present _ s, rfl⟩, (getD_singleton_zero 0 i).trans (ite_self 0),
    getD_singleton_zero _ i, getD_singleton_zero _ i, getD_singleton_zero _ i, getD_singleton_zero _ i,
    getD_singleton_zero _ i, getD_map_toNat _ i, getD_map_toNat _ i, getD_map_toNat _ i, getD_map_toNat _ i,
    getD_map_toNat _ i, fun h => ?_⟩
  rw [hostReadValue, regElements_unused s h, getD_singleton_zero, ite_self]

/-! ## Loads -/

theorem getD_replicate_default {α : Type} (n i : Nat) (d : α) : (List.replicate n d).getD i d = d := by
  rw [List.getD_eq_getElem?_getD, List.getElem?_getD_replicate_default_eq]

/-- A buffer reads as its bytes followed by zeros (R38). -/
theorem getD_append_replicate_zero (B : List Byte) (n i : Nat) :
    (B ++ List.replicate n 0x00).getD i 0x00 = B.getD i 0x00 := by
  rcases lt_or_ge i B.length with h | h
  · exact List.getD_append _ _ _ _ h
  · rw [List.getD_append_right _ _ _ _ h, getD_replicate_default, List.getD_eq_default _ _ h]

theorem step_present_loadKey {K : List Byte} (hK : K.length ≤ 32) (s : State) :
    step (present (.loadKey K) s) = .next (s.setKbuf K).dropSchedule := (step_present _ s).trans (if_pos hK)

theorem step_present_loadData {M : List Byte} {s : State} (hM : fits M.length s.cap = true) :
    step (present (.loadData M) s) = .next (s.setDin M) := (step_present _ s).trans (if_pos hM)

/-- Settles O6: the load is a write of `KBUF` and the drop of the schedule, and reads of `KBUF` are those of its
bytes. -/
theorem hostLoadKeyEffect : Obligations.HostLoadKeyEffect := by
  refine fun K s => ⟨fun hK => ⟨step_present_loadKey hK s, fun t ht => ?_⟩, fun hK => ?_⟩
  · obtain rfl := Host.Outcome.next.inj ((step_present_loadKey hK s).symm.trans ht)
    refine ⟨rfl, rfl, fun i _ => ?_⟩
    rw [getD_append_replicate_zero]
    exact getD_map_toNat K i
  · exact (step_present _ s).trans (if_neg (not_le.mpr hK))

/-- Settles O7: the load is a write of `DIN`, and reads of `DIN` are those of its bytes. -/
theorem hostLoadDataEffect : Obligations.HostLoadDataEffect := by
  refine fun M s => ⟨fun hM => ?_, fun c hc hM => ?_⟩
  · have hstep := step_present_loadData ((fits_iff _ _).mpr hM)
    refine ⟨hstep, fun t ht => ?_⟩
    obtain rfl := Host.Outcome.next.inj (hstep.symm.trans ht)
    refine ⟨rfl, fun c i _ _ => ?_⟩
    rw [getD_append_replicate_zero]
    exact getD_map_toNat M i
  · exact (step_present _ s).trans (if_neg fun h => not_le.mpr hM ((fits_iff _ _).mp h c hc))

/-! ## Writes by id -/

/-- A write by id is the write to `CMD`, no transaction, or ignored (R35, R73). -/
theorem hostWriteId_cases (id : Nat) (v : CmdWord) (s : State) :
    (id = 0x00 ∧ hostWriteId id v s = runCommand v s)
      ∨ (id ∈ [0x10, 0x12, 0x13] ∧ hostWriteId id v s = .refused .notATransaction)
      ∨ (id ∉ [0x00, 0x10, 0x12, 0x13] ∧ hostWriteId id v s = .next s) := by
  unfold hostWriteId
  split
  next => exact .inl ⟨rfl, rfl⟩
  iterate 3 next => exact .inr (.inl ⟨by decide, rfl⟩)
  next h0 h10 h12 h13 => exact .inr (.inr ⟨by simpa using ⟨h0, h10, h12, h13⟩, rfl⟩)

theorem hostWriteId_of_notMem {id : Nat} (h : id ∉ [0x00, 0x10, 0x12, 0x13]) (v : CmdWord) (s : State) :
    hostWriteId id v s = .next s := by
  obtain ⟨rfl, -⟩ | ⟨hmem, -⟩ | ⟨-, hnext⟩ := hostWriteId_cases id v s
  · exact absurd List.mem_cons_self h
  · exact absurd (List.mem_cons_of_mem _ hmem) h
  · exact hnext

/-- Settles O10: the ids of the first clause are none of those of `CMD` and of the registers with transactions of their
own. -/
theorem hostWriteByIdEffect : Obligations.HostWriteByIdEffect := by
  refine fun s id v => ⟨fun hid => ?_, (step_present _ s).trans (step_issue v s).symm⟩
  have hother : id ∉ [0x00, 0x10, 0x12, 0x13] := by
    simp only [List.mem_cons, List.not_mem_nil, or_false] at hid ⊢
    omega
  exact (step_present _ s).trans (hostWriteId_of_notMem hother v s)

/-! ## Which events have a next state -/

theorem exists_exec_eq_next (i : Instr) (s : State) : ∃ t, exec i s = .next t := by
  obtain ⟨e, u, h⟩ := exec_ends i s
  exact ⟨u.setErr e, h.exec_eq⟩

theorem exists_runCommand_eq_next (w : CmdWord) (s : State) : ∃ t, runCommand w s = .next t := by
  obtain ⟨i, -, hi⟩ | ⟨-, herr⟩ := runCommand_cases w s
  · rw [hi]
    exact exists_exec_eq_next i s
  · exact ⟨_, herr⟩

/-- Settles O15: the events that are refused are the three of the statement; all others have a next state. -/
theorem everyStepAnswers : Obligations.EveryStepAnswers := by
  refine ⟨exists_exec_eq_next, fun s => step_of_idle, fun s e => ?_⟩
  cases e with
  | loadKey K =>
    by_cases hK : K.length ≤ 32
    · exact .inl ⟨_, step_present_loadKey hK s⟩
    · exact .inr (.inl ⟨K, rfl, not_le.mp hK⟩)
  | loadData M =>
    by_cases hM : ∀ c, s.cap = some c → M.length ≤ c
    · exact .inl ⟨_, step_present_loadData ((fits_iff _ _).mpr hM)⟩
    · push Not at hM
      obtain ⟨c, hc, hlt⟩ := hM
      exact .inr (.inr (.inl ⟨M, c, rfl, hc, hlt⟩))
  | writeCmd w =>
    obtain ⟨t, ht⟩ := exists_runCommand_eq_next w s
    exact .inl ⟨t, (step_present _ s).trans ht⟩
  | writeId id v =>
    obtain ⟨-, hrun⟩ | ⟨hmem, -⟩ | ⟨-, hnext⟩ := hostWriteId_cases id v s
    · obtain ⟨t, ht⟩ := exists_runCommand_eq_next v s
      exact .inl ⟨t, (step_present _ s).trans (hrun.trans ht)⟩
    · exact .inr (.inr (.inr ⟨id, v, rfl, hmem⟩))
    · exact .inl ⟨_, (step_present _ s).trans hnext⟩
  | reset | writeS | writeSByte | read | readAll => exact .inl ⟨_, step_present _ s⟩

/-- Settles O14: a load, a write or a read that is no command and is not refused writes other fields only. -/
theorem hostTransactionsKeepErr : Obligations.HostTransactionsKeepErr := by
  intro s t e hreset hcmd hid ht
  rw [step_present] at ht
  cases e with
  | reset => exact absurd rfl hreset
  | writeCmd w => exact absurd rfl (hcmd w)
  | loadKey K =>
    simp only [serve, hostLoadKey] at ht
    split at ht <;> cases ht
    rfl
  | loadData M =>
    simp only [serve, hostLoadData] at ht
    split at ht <;> cases ht
    rfl
  | writeId id v =>
    obtain ⟨rfl, -⟩ | ⟨-, hrefused⟩ | ⟨-, hnext⟩ := hostWriteId_cases id v s
    · exact absurd rfl (hid v)
    · cases hrefused.symm.trans ht
    · cases hnext.symm.trans ht
      rfl
  | writeS | writeSByte | read | readAll =>
    cases ht
    rfl

end Sys2Proof.Machine
end

section
/-! PROOF. Reset (R37, R230) and `CLR` (R195), which leave the engine in the same state, and what the failing commands
and `PAD` do there (R231). -/

namespace Sys2Proof.Machine

open Sys2Proof.Claims

/-! ## Reset and `CLR` -/

/-- Settles O46: `CLR` is the clearing of the engine and the success action, which has nothing left to write; and its
word has no operand. -/
theorem clrCommand : Obligations.ClrCommand :=
  ⟨fun _ => rfl, rfl, noOperandWord_of_instrOfOp (by decide) rfl rfl⟩

theorem status_reset : status State.reset = 0x00 := by decide

theorem engineReset_clearEngine (s : State) : EngineReset s.clearEngine :=
  ⟨rfl, rfl, fun i => zeroSchedule_getElem i i.isLt, rfl, fun i => zeroBlock_getElem i i.isLt, rfl, rfl, rfl, rfl, rfl,
    rfl, status_reset⟩

theorem sameOutside_clearEngine (s : State) : SameOutside s s.clearEngine := ⟨rfl, rfl, rfl, rfl, rfl⟩

/-- The values of R37 are all that clearing writes. -/
theorem clearEngine_eq_self {t : State} (h : EngineReset t) : t.clearEngine = t := by
  obtain ⟨hkbuf, -, hrk, hsv, hsReg, hdin, -, hdout, -, hres, herr, -⟩ := h
  have hrk0 : t.rk = zeroSchedule :=
    Vector.ext fun i hi => (hrk ⟨i, hi⟩).trans (zeroSchedule_getElem i hi).symm
  have hsReg0 : t.sReg = zeroBlock :=
    Vector.ext fun i hi => (hsReg ⟨i, hi⟩).trans (zeroBlock_getElem i hi).symm
  cases t
  simp_all only [State.clearEngine, State.reset]

theorem map_toNat_replicate_zero (n : Nat) :
    (Vector.replicate n (0x00 : Byte)).toList.map (·.toNat) = List.replicate n 0 := by
  simp

/-- In a cleared engine every register is zeros, or empty. -/
theorem regElements_clearEngine (s : State) (id : Nat) : ∃ n, regElements s.clearEngine id = List.replicate n 0 := by
  have hstatus : regElements s.clearEngine 0x01 = [0] := congrArg (fun v : Byte => [v.toNat]) status_reset
  unfold regElements
  split
  next => exact ⟨1, hstatus⟩
  iterate 4 next => exact ⟨1, rfl⟩
  next => exact ⟨16, map_toNat_replicate_zero 16⟩
  next => exact ⟨176, map_toNat_replicate_zero 176⟩
  iterate 3 next => exact ⟨0, rfl⟩
  next => exact ⟨1, rfl⟩

theorem hostReadValue_of_engineReset {t : State} (h : EngineReset t) (id i : Nat) : hostReadValue t id i = 0 := by
  obtain ⟨n, hn⟩ := regElements_clearEngine t id
  rw [clearEngine_eq_self h] at hn
  rw [hostReadValue, hn, getD_replicate_default]

/-- Settles O12: reset and `CLR` clear the engine, and nothing else can be read of a cleared engine. -/
theorem resetValues : Obligations.ResetValues :=
  ⟨engineReset_clearEngine State.reset,
    fun s => ⟨s.clearEngine, step_present _ s, engineReset_clearEngine s, sameOutside_clearEngine s⟩,
    fun s => ⟨s.clearEngine, rfl, engineReset_clearEngine s, sameOutside_clearEngine s⟩,
    fun _ id i h => hostReadValue_of_engineReset h id i⟩

/-! ## Commands in the reset state -/

/-- Settles O13: there is no key, no schedule and no input. -/
theorem commandsInResetState : Obligations.CommandsInResetState := by
  have hklen : State.reset.klen ≠ 16 := by decide
  refine ⟨exec_keyexp_of_klen_ne hklen, exec_cbcenc_of_klen_ne hklen, exec_cbcdec_of_klen_ne hklen, fun a ha => ?_,
    rfl, rfl, exec_unpad_of_error (unpad_of_bad_length (.inl rfl)), exec_pad State.reset⟩
  obtain ⟨n, rfl⟩ := exists_eq_ofNat_round ha
  exact exec_addrk_of_sv_eq_false rfl n

end Sys2Proof.Machine
end
